-- ==== Sys2Proof/Word.lean ====
section
/-! DEFINITION. The engine's value types: bytes and 16- and 32-bit words (00_scope.md R7). `Time` (R7, D2) is the
natural numbers, with no wrap, and is written Nat, as every count and offset is. -/

namespace Sys2Proof

/-- R7: a *byte* (`u8`). -/
abbrev Byte := BitVec 8

/-- R7: a `u16`. -/
abbrev U16 := BitVec 16

/-- R7: a `u32`. -/
abbrev U32 := BitVec 32

end Sys2Proof
end

