-- ==== Sys2Proof/Config.lean ====
section
/-! DEFINITION. The configuration parameters of 00_scope.md R6, and the values the spec leaves open. -/

namespace Sys2Proof

/-- One entry of the command catalog (R116): the opcode, its parameter count `n` and its expected
reply length `E`. -/
structure CatalogEntry where
  opcode : Byte
  n : Nat
  expLen : Nat
  deriving DecidableEq, Repr

/-- The parameters of R6. They are fixed for a run (R116); State carries them so that every statement
holds for every value of them. -/
structure Config where
  /-- `P_MAX`, the most parameter bytes a catalog command has. -/
  pMax : Nat
  /-- `R_MAX`, the capacity of the receive buffer in bytes. -/
  rMax : Nat
  /-- `CATALOG`. -/
  catalog : List CatalogEntry
  /-- `RX_VERIFY_CHECKSUM`. -/
  rxVerifyChecksum : Bool
  deriving DecidableEq, Repr

/-- R6, I2: `TIME_UNIT`, the real duration of one unit of `Time`, is OPEN and no rule depends on it:
no definition of the model reads it. -/
opaque Config.timeUnit : Nat

/-- I22, D3: how many clock cycles step number `k` takes is OPEN: no definition of the model reads it. -/
opaque Config.cyclesOfStep : Nat → Nat

/-- DESIGN CHOICE (log entry 5), a free value. R505 writes `rx_cnt` into the 8-bit `DETAIL`, and states
no result for a count above 255, which a raised `R_MAX` (R6) allows. -/
opaque Config.freeDetail : Nat → Byte

end Sys2Proof
end

