-- ==== Sys2Proof/Syntax.lean ====
section
/-! DEFINITION. The instructions: one constructor per row of spec/opcode_table.json. An operand is a byte of
the frame that the row leaves open; `addr`, `conf` and `cks` are R301's address, confirmation byte and
carried checksum. -/

namespace Sys2Proof

/-- R302: three command frames and three acknowledgement frames. -/
inductive Instr where
  /-- VERIFY_PASSWORD (R451): the four password bytes, in frame order. -/
  | verifyPassword (p0 p1 p2 p3 : Byte)
  /-- CHECK_FIRMWARE (R452): no operands. -/
  | checkFirmware
  /-- CONFIG_LED (R453): control-code, speed, color-index, cycle-count. -/
  | configLed (controlCode speed colorIndex cycleCount : Byte)
  /-- ACK_VERIFY_PASSWORD (R301, R420): the 12-byte reply to VERIFY_PASSWORD. -/
  | ackVerifyPassword (addr : U32) (conf : Byte) (cks : U16)
  /-- ACK_CHECK_FIRMWARE (R301, R420): the 44-byte reply to CHECK_FIRMWARE, with its payload bytes. -/
  | ackCheckFirmware (addr : U32) (conf : Byte) (payload : List Byte) (cks : U16)
  /-- ACK_CONFIG_LED (R301, R420): the 12-byte reply to CONFIG_LED. -/
  | ackConfigLed (addr : U32) (conf : Byte) (cks : U16)
  deriving DecidableEq, Repr

end Sys2Proof
end

