-- ==== Sys2Proof/WellFormed.lean ====
section
/-! DEFINITION. Which instructions a frame can carry. -/

namespace Sys2Proof

/-- R450, R452: the reply to CHECK_FIRMWARE carries exactly `E - 12 = 32` payload bytes. Every other operand
is a byte, word or double word of fixed width, so nothing else can be ill-formed. -/
def Instr.wellFormed : Instr → Bool
  | .verifyPassword _ _ _ _ => true
  | .checkFirmware => true
  | .configLed _ _ _ _ => true
  | .ackVerifyPassword _ _ _ => true
  | .ackCheckFirmware _ _ payload _ => payload.length == 32
  | .ackConfigLed _ _ _ => true

end Sys2Proof
end

