-- ==== Sys2Proof/Decode.lean ====
section
/-! DEFINITION. The protocol constants (R6), byte order (R9), the 16-bit sum (R10), the frame functions
`encode` and `parse` (R400, R411), the decoder of frames to instructions (R302) and, after it, the encoder. -/

namespace Sys2Proof

/-! ## Constants (R6) -/

/-- R6: `START_MARKER`. -/
def startMarker : U16 := 0xEF01

/-- R6, D32: `ADDRESS_TX`, the broadcast default. -/
def addressTx : U32 := 0xFFFFFFFF

/-- R6, R306: `PT_CMD`. -/
def ptCmd : Byte := 0x01

/-- R6, R306: `PT_ACK`. -/
def ptAck : Byte := 0x07

/-- R6, R552: `CONF_OK`. -/
def confOk : Byte := 0x00

/-- R6: `HDR_LEN`, the bytes at offsets 0..8. -/
def hdrLen : Nat := 9

/-- R6: `MIN_FRAME`, a frame with no parameter bytes. -/
def minFrame : Nat := 12

/-- R400, D31: the longest parameter sequence whose length field fits 16 bits. -/
def maxParams : Nat := 65532

/-- R307: the opcode of VERIFY_PASSWORD. -/
def opVerifyPassword : Byte := 0x13

/-- R307: the opcode of CHECK_FIRMWARE. -/
def opCheckFirmware : Byte := 0x3A

/-- R307: the opcode of CONFIG_LED. -/
def opConfigLed : Byte := 0x35

/-- R450: the three entries of the default catalog. -/
def defaultCatalog : List CatalogEntry :=
  [⟨opVerifyPassword, 4, 12⟩, ⟨opCheckFirmware, 0, 44⟩, ⟨opConfigLed, 4, 12⟩]

/-- R6: every parameter at its default. -/
def Config.default : Config :=
  { pMax := 4, rMax := 44, catalog := defaultCatalog, rxVerifyChecksum := true }

/-! ## Byte order and the sum -/

/-- R7: `hi8(v) = v[15:8]`. -/
def hi8 (v : U16) : Byte := v.extractLsb' 8 8

/-- R7: `lo8(v) = v[7:0]`. -/
def lo8 (v : U16) : Byte := v.extractLsb' 0 8

/-- R9: `be16(a, b) = a * 256 + b`, `a` at the lower offset. -/
def be16 (a b : Byte) : U16 := a ++ b

/-- R9: `be32(a, b, c, d)`, `a` at the lowest offset. -/
def be32 (a b c d : Byte) : U32 := ((a ++ b) ++ c) ++ d

/-- R202: the four bytes of a double word, most significant first. -/
def bytes32 (v : U32) : List Byte :=
  [v.extractLsb' 24 8, v.extractLsb' 16 8, v.extractLsb' 8 8, v.extractLsb' 0 8]

/-- R10: one byte added to the running checksum, mod 65536. -/
def addSum (acc : U16) (b : Byte) : U16 := acc + b.setWidth 16

/-- R10: `sum16(s)`. -/
def sum16 (s : List Byte) : U16 := s.foldl addSum 0

/-- R11: a byte sequence read as one big-endian number. -/
def beNat (s : List Byte) : Nat := s.foldl (fun acc b => acc * 256 + b.toNat) 0

/-! ## Frames (R300, R400, R411) -/

/-- R303: the length field of a frame with `k` parameter bytes. -/
def lenField (k : Nat) : U16 := BitVec.ofNat 16 (k + 3)

/-- R304, R400: the summed part of a frame, offsets `6..9+N`. -/
def frameBody (t o : Byte) (p : List Byte) : List Byte :=
  [t, hi8 (lenField p.length), lo8 (lenField p.length), o] ++ p

/-- R400: the bytes `encode` returns, whatever the length of `p`. -/
def frameBytes (t o : Byte) (p : List Byte) : List Byte :=
  [hi8 startMarker, lo8 startMarker] ++ bytes32 addressTx ++ frameBody t o p ++
    [hi8 (sum16 (frameBody t o p)), lo8 (sum16 (frameBody t o p))]

/-- R400: `encode(t, o, p)`. None outside its domain `len(p) ≤ 65532`: a model refuses such a call (D31). -/
def encodeFrame (t o : Byte) (p : List Byte) : Option (List Byte) :=
  if p.length ≤ maxParams then some (frameBytes t o p) else none

/-- The record R411's `parse` returns. -/
structure FrameFields where
  marker : U16
  addr : U32
  ptype : Byte
  len : U16
  code : Byte
  params : List Byte
  cks : U16
  deriving DecidableEq, Repr

/-- The bytes after offset 9, split into parameters and the two checksum bytes (R411). -/
def splitCks : List Byte → Option (List Byte × U16)
  | [] => none
  | [_] => none
  | [a, b] => some ([], be16 a b)
  | a :: b :: c :: rest =>
    match splitCks (b :: c :: rest) with
    | none => none
    | some (ps, ck) => some (a :: ps, ck)

/-- R411: `parse(raw)`. It checks nothing; a sequence shorter than 12 bytes is outside its domain. -/
def parseFrame : List Byte → Option FrameFields
  | b0 :: b1 :: b2 :: b3 :: b4 :: b5 :: b6 :: b7 :: b8 :: b9 :: tail =>
    match splitCks tail with
    | none => none
    | some (ps, ck) =>
      some { marker := be16 b0 b1, addr := be32 b2 b3 b4 b5, ptype := b6, len := be16 b7 b8,
             code := b9, params := ps, cks := ck }
  | _ => none

/-! ## The header word and the opcode table (R302) -/

/-- R302: the first ten bytes of a frame as one 80-bit big-endian word. -/
def headerWord (marker : U16) (addr : U32) (ptype : Byte) (len : U16) (code : Byte) : BitVec 80 :=
  (((marker ++ addr) ++ ptype) ++ len) ++ code

/-- R302: `H` of a byte sequence, where it has ten bytes. -/
def headerOf : List Byte → Option (BitVec 80)
  | b0 :: b1 :: b2 :: b3 :: b4 :: b5 :: b6 :: b7 :: b8 :: b9 :: _ =>
    some (headerWord (be16 b0 b1) (be32 b2 b3 b4 b5) b6 (be16 b7 b8) b9)
  | _ => none

/-- One row of opcode_table.json over `H`. -/
structure OpcodeRow where
  pattern : BitVec 80
  mask : BitVec 80
  deriving DecidableEq, Repr

/-- R302: a frame matches a row when `(H AND mask) = match`. -/
def OpcodeRow.matches (r : OpcodeRow) (h : BitVec 80) : Bool := (h &&& r.mask) == r.pattern

/-- R302, opcode_table.json: the row of each instruction. -/
def Instr.row : Instr → OpcodeRow
  | .verifyPassword _ _ _ _ => ⟨0xEF01FFFFFFFF01000713, 0xFFFFFFFFFFFFFFFFFFFF⟩
  | .checkFirmware => ⟨0xEF01FFFFFFFF0100033A, 0xFFFFFFFFFFFFFFFFFFFF⟩
  | .configLed _ _ _ _ => ⟨0xEF01FFFFFFFF01000735, 0xFFFFFFFFFFFFFFFFFFFF⟩
  | .ackVerifyPassword _ _ _ => ⟨0xEF010000000007000300, 0xFFFF00000000FFFFFF00⟩
  | .ackCheckFirmware _ _ _ _ => ⟨0xEF010000000007002300, 0xFFFF00000000FFFFFF00⟩
  | .ackConfigLed _ _ _ => ⟨0xEF010000000007000300, 0xFFFF00000000FFFFFF00⟩

/-! ## The decoder -/

/-- Why a byte sequence is no instruction. -/
inductive DecodeError where
  /-- fewer bytes than the frame has -/
  | tooShort
  /-- offsets 0..1 are not `EF 01` (R300) -/
  | badStartMarker
  /-- offset 6 is neither 0x01 nor 0x07 (R306) -/
  | badPacketType
  /-- a command frame whose address is not the broadcast default (R302, D32) -/
  | badAddress
  /-- a command frame whose opcode is not in the table (R307) -/
  | unknownOpcode
  /-- a length field that no row with this opcode, or no reply to this command, has (R302) -/
  | badLength
  /-- an acknowledgement where the command in flight is none of the table's (R302) -/
  | noReplyRow
  deriving DecidableEq, Repr

/-- R302, R451 to R453: a command frame after its packet type. The two checksum bytes are not operands (the
framer computes them, R402) and are passed over (log entry 7). -/
def decodeCommand (addr : U32) (len : U16) (code : Byte) (tail : List Byte) :
    Except DecodeError (Instr × List Byte) :=
  if addr ≠ addressTx then .error .badAddress
  else if code = opVerifyPassword then
    if len ≠ lenField 4 then .error .badLength
    else match tail with
      | p0 :: p1 :: p2 :: p3 :: _ :: _ :: rest => .ok (.verifyPassword p0 p1 p2 p3, rest)
      | _ => .error .tooShort
  else if code = opCheckFirmware then
    if len ≠ lenField 0 then .error .badLength
    else match tail with
      | _ :: _ :: rest => .ok (.checkFirmware, rest)
      | _ => .error .tooShort
  else if code = opConfigLed then
    if len ≠ lenField 4 then .error .badLength
    else match tail with
      | c :: s :: k :: m :: _ :: _ :: rest => .ok (.configLed c s k m, rest)
      | _ => .error .tooShort
  else .error .unknownOpcode

/-- R301, R302: an acknowledgement frame after its packet type. Rows ACK_VERIFY_PASSWORD and ACK_CONFIG_LED have
one pattern; `inFlight`, the opcode of the command sent, tells which row the reply stands for (log entry 6). -/
def decodeReply (inFlight : Byte) (addr : U32) (len : U16) (conf : Byte) (tail : List Byte) :
    Except DecodeError (Instr × List Byte) :=
  if inFlight = opVerifyPassword then
    if len ≠ lenField 0 then .error .badLength
    else match tail with
      | k1 :: k0 :: rest => .ok (.ackVerifyPassword addr conf (be16 k1 k0), rest)
      | _ => .error .tooShort
  else if inFlight = opCheckFirmware then
    if len ≠ lenField 32 then .error .badLength
    else match tail.drop 32 with
      | k1 :: k0 :: rest => .ok (.ackCheckFirmware addr conf (tail.take 32) (be16 k1 k0), rest)
      | _ => .error .tooShort
  else if inFlight = opConfigLed then
    if len ≠ lenField 0 then .error .badLength
    else match tail with
      | k1 :: k0 :: rest => .ok (.ackConfigLed addr conf (be16 k1 k0), rest)
      | _ => .error .tooShort
  else .error .noReplyRow

/-- The instruction at the head of a byte sequence and the bytes after it, total on any bytes (R300, R302). -/
def decodeFrame (inFlight : Byte) : List Byte → Except DecodeError (Instr × List Byte)
  | b0 :: b1 :: b2 :: b3 :: b4 :: b5 :: b6 :: b7 :: b8 :: b9 :: tail =>
    if be16 b0 b1 ≠ startMarker then .error .badStartMarker
    else if b6 = ptCmd then decodeCommand (be32 b2 b3 b4 b5) (be16 b7 b8) b9 tail
    else if b6 = ptAck then decodeReply inFlight (be32 b2 b3 b4 b5) (be16 b7 b8) b9 tail
    else .error .badPacketType
  | _ => .error .tooShort

/-! ## The encoder -/

/-- R301: the bytes of an acknowledgement frame that carries the checksum `cks`. -/
def ackBytes (addr : U32) (conf : Byte) (payload : List Byte) (cks : U16) : List Byte :=
  [hi8 startMarker, lo8 startMarker] ++ bytes32 addr ++
    [ptAck, hi8 (lenField payload.length), lo8 (lenField payload.length), conf] ++ payload ++ [hi8 cks, lo8 cks]

/-- The frame of an instruction, in wire order (R300, R301, R451 to R453). -/
def encode : Instr → List Byte
  | .verifyPassword p0 p1 p2 p3 => frameBytes ptCmd opVerifyPassword [p0, p1, p2, p3]
  | .checkFirmware => frameBytes ptCmd opCheckFirmware []
  | .configLed c s k m => frameBytes ptCmd opConfigLed [c, s, k, m]
  | .ackVerifyPassword addr conf cks => ackBytes addr conf [] cks
  | .ackCheckFirmware addr conf payload cks => ackBytes addr conf payload cks
  | .ackConfigLed addr conf cks => ackBytes addr conf [] cks

/-- R307, R450: the opcode of the command that an instruction is, or that it answers. -/
def Instr.command : Instr → Byte
  | .verifyPassword _ _ _ _ => opVerifyPassword
  | .checkFirmware => opCheckFirmware
  | .configLed _ _ _ _ => opConfigLed
  | .ackVerifyPassword _ _ _ => opVerifyPassword
  | .ackCheckFirmware _ _ _ _ => opCheckFirmware
  | .ackConfigLed _ _ _ => opConfigLed

/-- R306: an acknowledgement frame (packet type 0x07), not a command frame. -/
def Instr.isReply : Instr → Bool
  | .verifyPassword _ _ _ _ => false
  | .checkFirmware => false
  | .configLed _ _ _ _ => false
  | .ackVerifyPassword _ _ _ => true
  | .ackCheckFirmware _ _ _ _ => true
  | .ackConfigLed _ _ _ => true

/-- R450: the bytes of an instruction's frame (`F` of a command, `E` of a reply). -/
def Instr.frameLength : Instr → Nat
  | .verifyPassword _ _ _ _ => 16
  | .checkFirmware => 12
  | .configLed _ _ _ _ => 16
  | .ackVerifyPassword _ _ _ => 12
  | .ackCheckFirmware _ _ _ _ => 44
  | .ackConfigLed _ _ _ => 12

/-! ## Words as opcode_table.json numbers them -/

/-- The `k` low bytes of `w`, most significant first. -/
def beBytes : Nat → Nat → List Byte
  | 0, _ => []
  | k + 1, w => BitVec.ofNat 8 (w / 256 ^ k) :: beBytes k w

/-- R302: the table numbers the header word `H` big-endian, its bit 0 in the byte at offset 9; the bytes
after it are zero (log entry 8). -/
def tableBytes (nbits w : Nat) : List Byte := beBytes (nbits / 8) w ++ List.replicate 44 0

/-- The command a table word's reply row answers, read from its length field alone: 0x0023 answers
CHECK_FIRMWARE, any other VERIFY_PASSWORD (log entry 6). -/
def tableInFlight : List Byte → Byte
  | _ :: _ :: _ :: _ :: _ :: _ :: _ :: b7 :: b8 :: _ =>
    if be16 b7 b8 = lenField 32 then opCheckFirmware else opVerifyPassword
  | _ => opVerifyPassword

/-- The instruction the decoder reads from a table word. -/
def decodeTableWord (nbits w : Nat) : Option Instr :=
  match decodeFrame (tableInFlight (tableBytes nbits w)) (tableBytes nbits w) with
  | .ok (i, _) => some i
  | .error _ => none

end Sys2Proof
end

