-- ==== Sys2Proof/Machine/State.lean ====
section
/-! DEFINITION. The machine's state (10_state.md), the reasons a step can stop, and the state after reset. -/

namespace Sys2Proof.Machine

/-- R101: the sequencer states. -/
inductive SeqState where
  | idle
  | sending
  | awaiting
  | done
  deriving DecidableEq, Repr

/-- R108: the outcomes. Codes 6 and 7 are reserved and never produced, so no constructor stands for them. -/
inductive OutcomeName where
  | none
  | ok
  | deviceRejected
  | timeout
  | malformed
  | refused
  deriving DecidableEq, Repr

/-- A byte buffer as (offset, byte) pairs, offsets strictly rising; an unlisted offset has no value (R120). -/
abbrev Memory := List Host.Cell

/-- The input pins of one step: RESET (R115), the request port (R110), and whether the channel accepts a byte
the engine presents in this step (R111). -/
structure Pins where
  /-- `RESET` -/
  reset : Bool
  /-- `START` -/
  start : Bool
  /-- `REQ_OPCODE` -/
  reqOpcode : Byte
  /-- `REQ_PARAM[0..]` -/
  reqParam : List Byte
  /-- `REQ_DEADLINE` -/
  reqDeadline : Nat
  /-- the channel's answer to a presented byte -/
  txAccept : Bool
  deriving DecidableEq, Repr

/-- What the outside does in one step: the pins, the bytes that arrive in `ChanRx` and how far `now`
advances (R117). The environment moves first and the engine's step sees the result (log entry 3). -/
structure StepInput where
  pins : Pins
  /-- bytes the channel appends to `ChanRx` before the engine's step -/
  arrive : List Byte
  /-- how far `now` advances before the engine's step; `now` never decreases (R113) -/
  tick : Nat
  deriving DecidableEq, Repr

/-- Everything the spec gives the machine (R101 to R105, R116, R117). -/
structure State where
  /-- the configuration parameters of R6, fixed for a run -/
  cfg : Config
  /-- `st` (R101) -/
  st : SeqState
  /-- the R102 registers hold a value: R120 gives them none at reset (log entry 1) -/
  latched : Bool
  /-- `op` (R102) -/
  op : Byte
  /-- `n` (R102) -/
  n : Nat
  /-- `par[0..P_MAX-1]` (R102) -/
  par : List Byte
  /-- `E` (R102) -/
  expLen : Nat
  /-- `deadline` (R102) -/
  deadline : Nat
  /-- `tx_idx` (R103) -/
  txIdx : Nat
  /-- `tx_sum` (R103) -/
  txSum : U16
  /-- `rx_cnt` (R104) -/
  rxCnt : Nat
  /-- `rx_sum` (R104) -/
  rxSum : U16
  /-- `RxBuf[0..R_MAX-1]` (R104) -/
  rxBuf : Memory
  /-- `OUTCOME` (R105) -/
  outcome : OutcomeName
  /-- `DETAIL` (R105) -/
  detail : Byte
  /-- `PAYLOAD_LEN` (R105) -/
  payloadLen : Nat
  /-- `RX_CKS_FIELD` (R105) -/
  rxCksField : U16
  /-- `RX_CKS_CALC` (R105) -/
  rxCksCalc : U16
  /-- `RX_ADDR` (R105) -/
  rxAddr : U32
  /-- `ChanRx`, the channel's receive FIFO, head first (R117) -/
  chanRx : List Byte
  /-- `ChanTx`, the bytes the channel has accepted, oldest first (R117) -/
  chanTx : List Byte
  /-- `now` (R113, R117) -/
  now : Nat
  /-- the input pins as the step being taken sees them (R110, R111, R115) -/
  pins : Pins
  /-- the model's own: the inputs and environment draws of the steps to come (log entry 3) -/
  inputs : List StepInput
  deriving DecidableEq, Repr

/-- Why the machine stops with a fault. No run from reset reaches one. -/
inductive Fault where
  /-- Raised by `sendStep` and `awaitStep` when they read `op`, `n`, `E`, `par` or `deadline` before any START
  latched them (R120, I11: "fault"). Safe: the spec says a model stops there. -/
  | noValueRegister
  /-- Raised by `finish` when decode reads an `RxBuf` byte not written in this exchange (R120, I11). Safe. -/
  | noValueRxBuf
  /-- Raised by `pollStep` for a store at or past `E` or `R_MAX`, an offset outside the buffer's used part
  (R207, R208: "The receiver never writes RxBuf at or past E"). Safe. -/
  | rxStoreOutOfRange
  /-- Raised by `sendStep` for a frame offset at or past `F`, and by `finish` for a reply shorter than 12 bytes:
  outside the domain of `frame_byte` (R402) and of `parse` (R411). Safe. -/
  | outsideFrameDomain
  /-- Raised by the host's STATUS reader for an OUT field of 6 or 7 (I20: "fault"). Safe. -/
  | reservedOutcome
  deriving DecidableEq, Repr

/-- Why the model has no run. -/
inductive Refusal where
  /-- Raised by an arm of `exec` whose instruction has no meaning yet. Safe. -/
  | notModelled (mnemonic : String)
  /-- Raised by `step` when `CATALOG` breaks R454 (I14, D38: "refuse"). Safe. -/
  | illFormedCatalog
  /-- Raised by `step` and by the command meanings for a START while BUSY (R501, R704, I13, D16: "A model refuses
  the run"). Safe. -/
  | startWhileBusy
  /-- Raised by `startRequest` and `assembleLine` when a request carries the wrong number of parameter bytes
  (R310, I23: "refuse (script error)"), and by `readLines` for a text outside R310's syntax. Safe. -/
  | scriptError
  /-- Raised by `startRequest` for a command whose frame is outside `encode`'s domain (R400, I10, D31: "refuse");
  possible only where `P_MAX` is raised above 65532. Safe. -/
  | frameTooLong
  deriving DecidableEq, Repr

/-- All input pins at 0 (log entry 4). -/
def Pins.low : Pins :=
  { reset := false, start := false, reqOpcode := 0, reqParam := [], reqDeadline := 0, txAccept := false }

/-- R120, R702: the machine right after reset, under the default parameters of R6. `op`, `n`, `par`, `E` and
`deadline` hold no value there (`latched = false`); the zeros stored in them are log entry 1, and the
environment's initial state is log entry 4. -/
def State.reset : State :=
  { cfg := Config.default
    st := .idle
    latched := false
    op := 0
    n := 0
    par := List.replicate Config.default.pMax 0
    expLen := 0
    deadline := 0
    txIdx := 0
    txSum := 0
    rxCnt := 0
    rxSum := 0
    rxBuf := []
    outcome := .none
    detail := 0
    payloadLen := 0
    rxCksField := 0
    rxCksCalc := 0
    rxAddr := 0
    chanRx := []
    chanTx := []
    now := 0
    pins := Pins.low
    inputs := [] }

end Sys2Proof.Machine
end

