-- ==== Sys2Proof/Machine/Ops.lean ====
section
/-! DEFINITION. The shared operations: the receive buffer, the catalog, one step's inputs, RESET, raising an
outcome (the engine's trap entry, R610) and leaving one (R611), starting an exchange, sending and storing one
byte, and the decode checks. -/

namespace Sys2Proof.Machine

/-! ## The receive buffer -/

/-- The byte at an offset; an unlisted offset has no value (R120). -/
def Memory.read : Memory → Nat → Option Byte
  | [], _ => none
  | (k, v) :: rest, a => if k = a then some v else Memory.read rest a

/-- Stores one byte, keeping the offsets strictly rising. -/
def Memory.write : Memory → Nat → Byte → Memory
  | [], a, b => [(a, b)]
  | (k, v) :: rest, a, b =>
    if a < k then (a, b) :: (k, v) :: rest
    else if a = k then (a, b) :: rest
    else (k, v) :: Memory.write rest a b

/-- Every offset listed is at least `lo`, and they rise strictly. -/
def Memory.risingFrom : Nat → Memory → Bool
  | _, [] => true
  | lo, (k, _) :: rest => decide (lo ≤ k) && Memory.risingFrom (k + 1) rest

/-- The canonical form: offsets strictly rising. An unlisted offset has no value, so no entry can equal what
an unlisted offset reads as. -/
def Memory.wf (m : Memory) : Bool := Memory.risingFrom 0 m

/-- I11: reads an `RxBuf` byte of the exchange in flight. A byte not written in this exchange has no value,
even where an older exchange left one (R502). -/
def rxRead (s : State) (i : Nat) : Option Byte :=
  if i < s.rxCnt then Memory.read s.rxBuf i else none

/-- R11: the `k` buffer bytes from offset `a` on, lowest offset first. -/
def rxReadBytes (s : State) (a : Nat) : Nat → Option (List Byte)
  | 0 => some []
  | k + 1 =>
    match rxRead s a, rxReadBytes s (a + 1) k with
    | some b, some bs => some (b :: bs)
    | _, _ => none

/-! ## The catalog -/

/-- R116: the entry of an opcode, or none. -/
def lookupCatalog : List CatalogEntry → Byte → Option CatalogEntry
  | [], _ => none
  | e :: rest, o => if e.opcode = o then some e else lookupCatalog rest o

/-- R454: no opcode has two entries. -/
def opcodesDistinct : List CatalogEntry → Bool
  | [] => true
  | e :: rest => (lookupCatalog rest e.opcode).isNone && opcodesDistinct rest

/-- R454: every entry has `n ≤ P_MAX` and `12 ≤ E ≤ R_MAX`, and no opcode has two entries. -/
def catalogWellFormed (c : Config) : Bool :=
  c.catalog.all (fun e => decide (e.n ≤ c.pMax) && decide (minFrame ≤ e.expLen) && decide (e.expLen ≤ c.rMax)) &&
    opcodesDistinct c.catalog

/-! ## Inputs of a step and RESET -/

/-- The environment's moves before an engine step (R117): the pins take this step's values, bytes arrive in
`ChanRx`, `now` advances. Past the end of `inputs` nothing is asserted, accepted or delivered and `now` stands
(log entry 3). -/
def loadInput (s : State) : State :=
  match s.inputs with
  | [] => { s with pins := { s.pins with reset := false, start := false, txAccept := false } }
  | d :: rest =>
    { s with pins := d.pins, chanRx := s.chanRx ++ d.arrive, now := s.now + d.tick, inputs := rest }

/-- R700, R120: RESET. Every engine register takes its reset value; the configuration and the environment
stay. -/
def resetEngine (s : State) : State :=
  { s with
    st := .idle, latched := false, op := 0, n := 0, par := List.replicate s.cfg.pMax 0, expLen := 0, deadline := 0,
    txIdx := 0, txSum := 0, rxCnt := 0, rxSum := 0, rxBuf := [], outcome := .none, detail := 0, payloadLen := 0,
    rxCksField := 0, rxCksCalc := 0, rxAddr := 0 }

/-! ## Raising an outcome (R610) and leaving one (R611) -/

/-- R610: `raise Outcome(code, detail)`, the engine's trap entry. -/
def raiseOutcome (code : OutcomeName) (d : Byte) (s : State) : State :=
  { s with outcome := code, detail := d, st := .done }

/-- R501, R611: an accepted START clears the results of the exchange before it. -/
def clearResults (s : State) : State :=
  { s with outcome := .none, detail := 0, payloadLen := 0, rxCksField := 0, rxCksCalc := 0, rxAddr := 0 }

/-! ## Starting an exchange -/

/-- R107: `BUSY`, 1 in `SENDING` and `AWAITING`. -/
def busy (s : State) : Bool :=
  match s.st with
  | .sending => true
  | .awaiting => true
  | .idle => false
  | .done => false

/-- R502: `begin(n', E')`. -/
def latchRequest (opcode : Byte) (e : CatalogEntry) (params : List Byte) (s : State) : State :=
  { s with
    latched := true, op := opcode, n := e.n, expLen := e.expLen,
    par := params.take e.n ++ s.par.drop e.n, deadline := s.pins.reqDeadline,
    txIdx := 0, txSum := 0, rxCnt := 0, rxSum := 0, st := .sending }

/-- R503: `refuse()`, DETAIL 0x01 UNKNOWN_OPCODE. -/
def refuseRequest (s : State) : State := raiseOutcome .refused 0x01 s

/-- R501 to R503: START with a request for `opcode`. REQ_DEADLINE is read from the pins. -/
def startRequest (opcode : Byte) (params : List Byte) (s : State) : Host.Outcome State Fault Refusal :=
  if busy s then .refused .startWhileBusy
  else
    match lookupCatalog s.cfg.catalog opcode with
    | none => .next (refuseRequest (clearResults s))
    | some e =>
      if maxParams < e.n then .refused .frameTooLong
      else if params.length < e.n then .refused .scriptError
      else .next (latchRequest opcode e params (clearResults s))

/-! ## One byte sent, one byte stored -/

/-- R403, R504: the channel accepts the presented byte `b`. -/
def acceptByte (b : Byte) (s : State) : State :=
  { s with
    txSum := if 6 ≤ s.txIdx ∧ s.txIdx ≤ 9 + s.n then addSum s.txSum b else s.txSum
    txIdx := s.txIdx + 1
    chanTx := s.chanTx ++ [b]
    st := if s.txIdx + 1 = 12 + s.n then .awaiting else s.st }

/-- R410, R506: the poll delivered `b`, whose removal leaves `rest` in `ChanRx`. -/
def storeByte (b : Byte) (rest : List Byte) (s : State) : State :=
  { s with
    rxSum := if 6 ≤ s.rxCnt ∧ s.rxCnt ≤ s.expLen - 3 then addSum s.rxSum b else s.rxSum
    rxBuf := Memory.write s.rxBuf s.rxCnt b
    rxCnt := s.rxCnt + 1
    chanRx := rest }

/-- R505, R601: `DETAIL` of a TIMEOUT is the count of bytes received. R505 states no value for a count that does
not fit the byte; it is free (log entry 5). -/
def detailOfCount (k : Nat) : Byte := if k < 256 then BitVec.ofNat 8 k else Config.freeDetail k

/-! ## Decode and interpretation of a complete reply -/

/-- R420, R428: decode's exposures, written whatever it returns. -/
def exposeReply (cks : U16) (addr : U32) (s : State) : State :=
  { s with rxCksField := cks, rxCksCalc := s.rxSum, rxAddr := addr }

/-- R602: the reasons, in the order of the checks. -/
inductive MalformedReason where
  | checksumMismatch
  | badStartMarker
  | unexpectedPacketType
  | lengthMismatch
  deriving DecidableEq, Repr

/-- R602, D6: the reason codes. -/
def MalformedReason.toByte : MalformedReason → Byte
  | .checksumMismatch => 0x01
  | .badStartMarker => 0x02
  | .unexpectedPacketType => 0x03
  | .lengthMismatch => 0x04

/-- R420 to R424, R620: the first failing check of a reply with fields `f`, whose computed checksum is `computed`
and whose expected length is `expLen`. -/
def firstFailure (verify : Bool) (expLen : Nat) (computed : U16) (f : FrameFields) : Option MalformedReason :=
  if verify && computed != f.cks then some .checksumMismatch
  else if f.marker ≠ startMarker then some .badStartMarker
  else if f.ptype ≠ ptAck then some .unexpectedPacketType
  else if f.len.toNat ≠ expLen - hdrLen then some .lengthMismatch
  else none

/-- R551: writes `PAYLOAD_LEN`. -/
def setPayloadLen (k : Nat) (s : State) : State := { s with payloadLen := k }

/-- R550: `interpret(Reply(conf, payload))`. -/
def interpretReply (conf : Byte) (s : State) : State :=
  if conf = confOk then raiseOutcome .ok conf (setPayloadLen (s.expLen - minFrame) s)
  else raiseOutcome .deviceRejected conf (setPayloadLen 0 s)

/-- R507 on a parsed reply: expose, check, and raise or interpret. -/
def finishFields (f : FrameFields) (s : State) : State :=
  match firstFailure s.cfg.rxVerifyChecksum s.expLen s.rxSum f with
  | some r => raiseOutcome .malformed r.toByte (exposeReply f.cks f.addr s)
  | none => interpretReply f.code (exposeReply f.cks f.addr s)

/-- R420, R507: `finish()` on `RxBuf[0..E-1]`. -/
def finish (s : State) : Host.Outcome State Fault Refusal :=
  match rxReadBytes s 0 s.expLen with
  | none => .fault .noValueRxBuf
  | some bytes =>
    match parseFrame bytes with
    | none => .fault .outsideFrameDomain
    | some f => .next (finishFields f s)

/-- R427: the complete reply to `opcode`, of `expLen` bytes, is in the buffer. -/
def replyDue (opcode : Byte) (expLen : Nat) (s : State) : Bool :=
  s.st == .awaiting && s.latched && s.op == opcode && s.expLen == expLen && s.rxCnt == expLen

/-- R507 for a reply read as an instruction's fields. Decode runs only on a complete reply in `AWAITING` (R427);
at any other time the engine looks at no reply and nothing changes (R112, R509; log entry 9). -/
def finishReply (opcode : Byte) (expLen : Nat) (f : FrameFields) (s : State) : Host.Outcome State Fault Refusal :=
  if replyDue opcode expLen s then .next (finishFields f s) else .next s

end Sys2Proof.Machine
end

