-- ==== Sys2Proof/Machine/Operands.lean ====
section
/-! DEFINITION. Where the bytes of a frame come from: the TX framer's byte (R402), the request as the command
frame it asks for (R310), the complete reply as the acknowledgement frame it is (R302), and the fields an
acknowledgement instruction stands for (R301). -/

namespace Sys2Proof.Machine

/-- R402: `frame_byte(i)`; none outside `0 ≤ i < F`. -/
def frameByte (s : State) (i : Nat) : Option Byte :=
  if i = 0 then some (hi8 startMarker)
  else if i = 1 then some (lo8 startMarker)
  else if i ≤ 5 then some 0xFF
  else if i = 6 then some ptCmd
  else if i = 7 then some (hi8 (lenField s.n))
  else if i = 8 then some (lo8 (lenField s.n))
  else if i = 9 then some s.op
  else if i ≤ 9 + s.n then s.par[i - 10]?
  else if i = 10 + s.n then some (hi8 s.txSum)
  else if i = 11 + s.n then some (lo8 s.txSum)
  else none

/-- R310, R401: the instruction a START on the pins asks for, read by the decoder from the command frame the
engine would send. None for an opcode outside the catalog, or whose command is not one of the table's. -/
def fetchCommand (s : State) : Option Instr :=
  match lookupCatalog s.cfg.catalog s.pins.reqOpcode with
  | none => none
  | some e =>
    match encodeFrame ptCmd s.pins.reqOpcode (s.pins.reqParam.take e.n) with
    | none => none
    | some bytes =>
      match decodeFrame s.pins.reqOpcode bytes with
      | .ok (i, []) => some i
      | _ => none

/-- R302, R427: the instruction the complete reply in `RxBuf` is, where its `E` bytes are exactly one of the table's
acknowledgements of the command in flight. A command frame received is no reply (R306). -/
def fetchReply (s : State) : Option Instr :=
  match rxReadBytes s 0 s.expLen with
  | none => none
  | some bytes =>
    match decodeFrame s.op bytes with
    | .ok (i, []) => if i.isReply then some i else none
    | _ => none

/-- R301: the fields of an acknowledgement frame with `k` payload bytes. -/
def ackFields (addr : U32) (conf : Byte) (payload : List Byte) (cks : U16) (k : Nat) : FrameFields :=
  { marker := startMarker, addr := addr, ptype := ptAck, len := lenField k, code := conf, params := payload,
    cks := cks }

end Sys2Proof.Machine
end

