-- ==== Sys2Proof/Machine/Flags.lean ====
section
/-! DEFINITION. The STATUS word and its flags (R107 to R109) and the rest of the result port (R114). All of it is
computed from the registers; nothing here is state. -/

namespace Sys2Proof.Machine

/-- R101: the 2-bit code of `st`. -/
def SeqState.code : SeqState → BitVec 2
  | .idle => 0
  | .sending => 1
  | .awaiting => 2
  | .done => 3

/-- R108: the 3-bit code of an outcome. -/
def OutcomeName.code : OutcomeName → BitVec 3
  | .none => 0
  | .ok => 1
  | .deviceRejected => 2
  | .timeout => 3
  | .malformed => 4
  | .refused => 5

/-- R107: `STATUS.DONE`. -/
def doneFlag (s : State) : Bool :=
  match s.st with
  | .done => true
  | .idle => false
  | .sending => false
  | .awaiting => false

/-- R107: the 16-bit STATUS word, `DET` in its high byte, bit 7 reading 0. -/
def status (s : State) : BitVec 16 :=
  ((((s.detail ++ (0 : BitVec 1)) ++ s.outcome.code) ++ BitVec.ofBool (doneFlag s)) ++ BitVec.ofBool (busy s)) ++
    s.st.code

/-- R107, R108, I20: the outcome a STATUS word names. Codes 6 and 7 are reserved, and a model that sees one has
a fault. -/
def outcomeOfStatus (w : BitVec 16) : Except Fault OutcomeName :=
  match (w.extractLsb' 4 3).toNat with
  | 0 => .ok .none
  | 1 => .ok .ok
  | 2 => .ok .deviceRejected
  | 3 => .ok .timeout
  | 4 => .ok .malformed
  | 5 => .ok .refused
  | _ => .error .reservedOutcome

/-- R114, R551: `PAYLOAD[k] = RxBuf[10 + k]` for `k < PAYLOAD_LEN`. -/
def payloadAt (s : State) (k : Nat) : Option Byte :=
  if k < s.payloadLen then rxRead s (10 + k) else none

/-- R111: the byte the engine presents to the channel, in `SENDING` only. -/
def presentedByte (s : State) : Option Byte :=
  match s.st with
  | .sending => if s.latched then frameByte s s.txIdx else none
  | .idle => none
  | .awaiting => none
  | .done => none

end Sys2Proof.Machine
end

