-- ==== Sys2Proof/Machine/Command.lean ====
section
/-! DEFINITION. The three command instructions (41_command_catalog.md). Executing a command is the START step of
its request (R310): the sends, polls and the deadline that follow are steps of the sequencer, the same for
every command. -/

namespace Sys2Proof.Machine

/-- R451: VERIFY_PASSWORD, opcode 0x13, the four password bytes unchanged. -/
def execVerifyPassword (p0 p1 p2 p3 : Byte) (s : State) : Host.Outcome State Fault Refusal :=
  startRequest opVerifyPassword [p0, p1, p2, p3] s

/-- R452: CHECK_FIRMWARE, opcode 0x3A, no parameters. -/
def execCheckFirmware (s : State) : Host.Outcome State Fault Refusal :=
  startRequest opCheckFirmware [] s

/-- R453: CONFIG_LED, opcode 0x35, control-code, speed, color-index and cycle-count in that order. -/
def execConfigLed (controlCode speed colorIndex cycleCount : Byte) (s : State) : Host.Outcome State Fault Refusal :=
  startRequest opConfigLed [controlCode, speed, colorIndex, cycleCount] s

end Sys2Proof.Machine
end

