-- ==== Sys2Proof/Machine/Reply.lean ====
section
/-! DEFINITION. The three acknowledgement instructions. Executing an acknowledgement is `finish` (R507) on the
complete reply it is: the exposures, the checksum check and the interpretation of its confirmation byte. The
polls that took its bytes are the fetch. -/

namespace Sys2Proof.Machine

/-- R420, R450: the reply to VERIFY_PASSWORD, `E = 12`, no payload. -/
def execAckVerifyPassword (addr : U32) (conf : Byte) (cks : U16) (s : State) : Host.Outcome State Fault Refusal :=
  finishReply opVerifyPassword 12 (ackFields addr conf [] cks 0) s

/-- R420, R450: the reply to CHECK_FIRMWARE, `E = 44`; its 32 payload bytes stay in `RxBuf`, forwarded
opaquely (R551). -/
def execAckCheckFirmware (addr : U32) (conf : Byte) (payload : List Byte) (cks : U16) (s : State) :
    Host.Outcome State Fault Refusal :=
  finishReply opCheckFirmware 44 (ackFields addr conf payload cks 32) s

/-- R420, R450: the reply to CONFIG_LED, `E = 12`, no payload. -/
def execAckConfigLed (addr : U32) (conf : Byte) (cks : U16) (s : State) : Host.Outcome State Fault Refusal :=
  finishReply opConfigLed 12 (ackFields addr conf [] cks 0) s

end Sys2Proof.Machine
end

