-- ==== Sys2Proof/Machine/Dispatch.lean ====
section
/-! DEFINITION. One arm per constructor of Instr. -/

namespace Sys2Proof.Machine

def exec (i : Instr) (s : State) : Host.Outcome State Fault Refusal :=
  match i with
  | .verifyPassword p0 p1 p2 p3 => Sys2Proof.Machine.execVerifyPassword p0 p1 p2 p3 s
  | .checkFirmware => Sys2Proof.Machine.execCheckFirmware s
  | .configLed c v k m => Sys2Proof.Machine.execConfigLed c v k m s
  | .ackVerifyPassword addr conf cks => Sys2Proof.Machine.execAckVerifyPassword addr conf cks s
  | .ackCheckFirmware addr conf payload cks => Sys2Proof.Machine.execAckCheckFirmware addr conf payload cks s
  | .ackConfigLed addr conf cks => Sys2Proof.Machine.execAckConfigLed addr conf cks s

end Sys2Proof.Machine
end

