-- ==== Sys2Proof/Machine/Sequencer.lean ====
section
/-! DEFINITION. The exchange sequencer (42_transport_session.md): START, the send step, the deadline-bounded
receive step, and the order in which one step looks at its inputs. The instructions run from here: a command in
the START step, an acknowledgement in the step that stores the last byte of a reply. -/

namespace Sys2Proof.Machine

/-- R501 to R503: an accepted START. The request runs as the command it names; one that is none of the table's
(an opcode outside the catalog, or an entry a platform added, R456) runs the same rule on the raw pins. -/
def startStep (s : State) : Host.Outcome State Fault Refusal :=
  match fetchCommand s with
  | some i => exec i s
  | none => startRequest s.pins.reqOpcode s.pins.reqParam s

/-- R504: the send step. A refused byte changes nothing. Each `frame_byte` reads `n` (R402), and R120 and I11 say a read
of it before any START latched it "is a fault, never a number" (log entry 1). -/
def sendStep (s : State) : Host.Outcome State Fault Refusal :=
  if s.latched then
    match frameByte s s.txIdx with
    | none => .fault .outsideFrameDomain
    | some b => if s.pins.txAccept then .next (acceptByte b s) else .next s
  else .fault .noValueRegister

/-- R507: the reply is complete. One that is an acknowledgement of the table runs as that instruction; every other
(malformed, or to a command a platform added) runs the same rule on the raw buffer. -/
def finishStep (s : State) : Host.Outcome State Fault Refusal :=
  match fetchReply s with
  | some i => exec i s
  | none => finish s

/-- R506, R508: one poll. An empty poll changes nothing. -/
def pollStep (s : State) : Host.Outcome State Fault Refusal :=
  match s.chanRx with
  | [] => .next s
  | b :: rest =>
    if s.rxCnt < s.expLen ∧ s.rxCnt < s.cfg.rMax then
      if s.rxCnt + 1 = s.expLen then finishStep (storeByte b rest s) else .next (storeByte b rest s)
    else .fault .rxStoreOutOfRange

/-- R505: the deadline check, then the poll. The check reads `deadline`, and R120 and I11 say a read of it before any
START latched it "is a fault, never a number" (log entry 1). -/
def awaitStep (s : State) : Host.Outcome State Fault Refusal :=
  if s.latched then
    if s.deadline ≤ s.now then .next (raiseOutcome .timeout (detailOfCount s.rxCnt) s) else pollStep s
  else .fault .noValueRegister

/-- R500: what the engine does in a step without RESET. A START is looked at in `IDLE` and `DONE` only: in
`SENDING` and `AWAITING` the engine ignores it (R501, R620). -/
def engineStep (s : State) : Host.Outcome State Fault Refusal :=
  match s.st with
  | .idle => if s.pins.start then startStep s else .next s
  | .sending => sendStep s
  | .awaiting => awaitStep s
  | .done => if s.pins.start then startStep s else .next s

/-- R500, R620: RESET first; a START while BUSY, which the engine ignores, is a host violation and the model
refuses the run (R501, D16). -/
def clockedStep (s : State) : Host.Outcome State Fault Refusal :=
  if s.pins.reset then .next (resetEngine s)
  else if s.pins.start && busy s then .refused .startWhileBusy
  else engineStep s

/-! ## Putting one instruction where the next step fetches it -/

/-- The state whose next step is the START of the request in a command frame: not busy, and the next inputs assert
START with the frame's opcode (offset 9) and parameters (offsets 10..13). A frame names no deadline, so
REQ_DEADLINE keeps the value it has on the pins. -/
def stageCommand (bytes : List Byte) (s : State) : State :=
  { s with
    st := if busy s then .idle else s.st
    inputs :=
      { pins := { reset := false, start := true, reqOpcode := bytes.getD 9 0, reqParam := (bytes.drop 10).take 4,
                  reqDeadline := s.pins.reqDeadline, txAccept := false }
        arrive := [], tick := 0 } :: s.inputs }

/-- R506, R210: the bytes of a list received in order, each stored as a poll stores it. -/
def takeBytes : List Byte → State → State
  | [], s => s
  | b :: bs, s => takeBytes bs (storeByte b s.chanRx s)

/-- The state whose next step takes the last byte of the reply in `bytes` to the command `e` describes: the command
is in flight, all but its reply's last byte are in `RxBuf`, the last heads `ChanRx`, and the deadline is ahead. -/
def stageReply (e : CatalogEntry) (bytes : List Byte) (s : State) : State :=
  let s1 := takeBytes (bytes.take (e.expLen - 1))
    { s with
      st := .awaiting, latched := true, op := e.opcode, n := e.n, expLen := e.expLen, deadline := s.now + 1,
      txIdx := 12 + e.n, rxCnt := 0, rxSum := 0, rxBuf := [], outcome := .none, detail := 0, payloadLen := 0,
      rxCksField := 0, rxCksCalc := 0, rxAddr := 0 }
  { s1 with
    chanRx := bytes.getD (e.expLen - 1) 0 :: s1.chanRx
    inputs := { pins := { s.pins with reset := false, start := false, txAccept := false }, arrive := [], tick := 0 } ::
      s.inputs }

/-- The command the reply in `bytes` is staged for: the one in flight where the reply's length fits it, else the
table's reading (log entry 8). -/
def stagedEntry (bytes : List Byte) (s : State) : CatalogEntry :=
  if tableInFlight bytes = opCheckFirmware then ⟨opCheckFirmware, 0, 44⟩
  else if s.st = .awaiting ∧ s.op = opConfigLed then ⟨opConfigLed, 4, 12⟩
  else ⟨opVerifyPassword, 4, 12⟩

/-- A frame with the acknowledgement packet type at offset 6 is staged as a reply, every other as a command. -/
def stageFrame (bytes : List Byte) (s : State) : State :=
  if bytes.getD 6 0 = ptAck then stageReply (stagedEntry bytes s) bytes s else stageCommand bytes s

end Sys2Proof.Machine
end

