-- ==== Sys2Proof/Machine/Step.lean ====
section
/-! DEFINITION. One step (R500), and the placing of an instruction where it is fetched. -/

namespace Sys2Proof.Machine

/-- R500, R454: an ill-formed catalog has no run; otherwise the environment moves, then the engine steps. -/
def step (s : State) : Host.Outcome State Fault Refusal :=
  if catalogWellFormed s.cfg then clockedStep (loadInput s) else .refused .illFormedCatalog

/-- `s` with the frame of a table word placed so that the next step runs it (log entry 8). -/
def State.withFetchWord (s : State) (nbits w : Nat) : State := stageFrame (tableBytes nbits w) s

end Sys2Proof.Machine
end

