-- ==== Sys2Proof/Machine/Script.lean ====
section
/-! DEFINITION. Host scripts (R310, R311): their text read into lines, and each line as the engine inputs it stands
for. The host is outside the engine (R4), so a script is assembled into pins and is no part of State. -/

namespace Sys2Proof.Machine

/-- R310: the mnemonics of a script. -/
inductive ScriptMnemonic where
  | verifyPassword
  | checkFirmware
  | configLed
  /-- `OP xx`, a raw opcode -/
  | op (code : Byte)
  deriving DecidableEq, Repr

/-- R310: the lines of a script. -/
inductive ScriptLine where
  | exec (m : ScriptMnemonic) (bytes : List Byte) (deadline : Nat)
  | wait
  | reset
  deriving DecidableEq, Repr

/-- R307: the opcode a mnemonic stands for. -/
def ScriptMnemonic.opcode : ScriptMnemonic → Byte
  | .verifyPassword => opVerifyPassword
  | .checkFirmware => opCheckFirmware
  | .configLed => opConfigLed
  | .op code => code

/-- R311: VERIFY_PASSWORD with no bytes stands for four zero bytes; no other pseudo-instruction exists. -/
def expandPseudo : ScriptMnemonic → List Byte → List Byte
  | .verifyPassword, [] => [0, 0, 0, 0]
  | _, bytes => bytes

/-- R310: how many bytes an EXEC of an opcode must give: the catalog's `n`, and 0 for a raw opcode outside the catalog.
DESIGN CHOICE (log entry 22): R310 gives no count for a mnemonic whose opcode the configured catalog lacks, and the
model takes the raw opcode's 0. -/
def bytesExpected (c : Config) (opcode : Byte) : Nat :=
  match lookupCatalog c.catalog opcode with
  | some e => e.n
  | none => 0

/-- R310: the pins of the step a line stands for; WAIT stands for no input. An EXEC with another byte count is a
script error, refused before anything runs (I23). DESIGN CHOICE (log entry 22): the four bytes of the pseudo-instruction
are counted like written ones, so it is a script error under a catalog that gives its opcode another count or none. -/
def assembleLine (c : Config) : ScriptLine → Except Refusal (Option Pins)
  | .reset => .ok (some { Pins.low with reset := true })
  | .wait => .ok none
  | .exec m bytes deadline =>
    if (expandPseudo m bytes).length = bytesExpected c m.opcode then
      .ok (some { Pins.low with start := true, reqOpcode := m.opcode, reqParam := expandPseudo m bytes,
                                reqDeadline := deadline })
    else .error .scriptError

/-- R310: a program, line by line; one bad line refuses all of it. -/
def assembleScript (c : Config) : List ScriptLine → Except Refusal (List (Option Pins))
  | [] => .ok []
  | l :: rest =>
    match assembleLine c l, assembleScript c rest with
    | .ok p, .ok ps => .ok (p :: ps)
    | .error r, _ => .error r
    | _, .error r => .error r

/-! ## Reading the text (R310) -/

/-- The words of a line: runs of characters other than spaces and tabs. `w` is the word being read, reversed. -/
def wordsFrom (w : List Char) : List Char → List (List Char)
  | [] => if w = [] then [] else [w.reverse]
  | c :: cs =>
    if c = ' ' ∨ c = '\t' then (if w = [] then wordsFrom [] cs else w.reverse :: wordsFrom [] cs)
    else wordsFrom (c :: w) cs

/-- The lines of a text, without what stands behind a semicolon (log entry 20). `w` is the line being read,
reversed, and `skip` says that its semicolon has been passed. -/
def linesFrom (w : List Char) (skip : Bool) : List Char → List (List Char)
  | [] => [w.reverse]
  | c :: cs =>
    if c = '\n' then w.reverse :: linesFrom [] false cs
    else if skip ∨ c = ';' then linesFrom w true cs
    else linesFrom (c :: w) false cs

/-- R310: a hex digit, in either case. -/
def hexDigit (c : Char) : Option Nat :=
  if 48 ≤ c.toNat ∧ c.toNat ≤ 57 then some (c.toNat - 48)
  else if 65 ≤ c.toNat ∧ c.toNat ≤ 70 then some (c.toNat - 55)
  else if 97 ≤ c.toNat ∧ c.toNat ≤ 102 then some (c.toNat - 87)
  else none

/-- R310: a byte is two hex digits. -/
def readByte : List Char → Option Byte
  | [a, b] =>
    match hexDigit a, hexDigit b with
    | some x, some y => some (BitVec.ofNat 8 (x * 16 + y))
    | _, _ => none
  | _ => none

/-- The decimal digits of a word behind the number `acc` of those before them. -/
def readDecimalFrom (acc : Nat) : List Char → Option Nat
  | [] => some acc
  | c :: cs =>
    if 48 ≤ c.toNat ∧ c.toNat ≤ 57 then readDecimalFrom (acc * 10 + (c.toNat - 48)) cs else none

/-- R310: a time is a decimal natural number. -/
def readTime : List Char → Option Nat
  | [] => none
  | c :: cs => readDecimalFrom 0 (c :: cs)

/-- R310: `byte* "DEADLINE" time`. -/
def readExecTail : List (List Char) → Option (List Byte × Nat)
  | [] => none
  | w :: rest =>
    if w = ['D', 'E', 'A', 'D', 'L', 'I', 'N', 'E'] then
      match rest with
      | [t] => (readTime t).map (fun d => ([], d))
      | _ => none
    else
      match readByte w, readExecTail rest with
      | some b, some (bs, d) => some (b :: bs, d)
      | _, _ => none

/-- R310: the mnemonic at the head of the words after EXEC, and the words after it. -/
def readMnemonic : List (List Char) → Option (ScriptMnemonic × List (List Char))
  | [] => none
  | w :: rest =>
    if w = ['V', 'E', 'R', 'I', 'F', 'Y', '_', 'P', 'A', 'S', 'S', 'W', 'O', 'R', 'D'] then some (.verifyPassword, rest)
    else if w = ['C', 'H', 'E', 'C', 'K', '_', 'F', 'I', 'R', 'M', 'W', 'A', 'R', 'E'] then some (.checkFirmware, rest)
    else if w = ['C', 'O', 'N', 'F', 'I', 'G', '_', 'L', 'E', 'D'] then some (.configLed, rest)
    else if w = ['O', 'P'] then
      match rest with
      | b :: rest' => (readByte b).map (fun code => (.op code, rest'))
      | [] => none
    else none

/-- R310: one line, from its words. -/
def readLine : List (List Char) → Option ScriptLine
  | [] => none
  | w :: rest =>
    if w = ['W', 'A', 'I', 'T'] then (if rest = [] then some .wait else none)
    else if w = ['R', 'E', 'S', 'E', 'T'] then (if rest = [] then some .reset else none)
    else if w = ['E', 'X', 'E', 'C'] then
      match readMnemonic rest with
      | some (m, rest') => (readExecTail rest').map (fun t => .exec m t.1 t.2)
      | none => none
    else none

/-- R310: the lines of a program; a blank line stands for nothing, and one bad line refuses the script. -/
def readLines : List (List Char) → Except Refusal (List ScriptLine)
  | [] => .ok []
  | text :: rest =>
    match readLines rest with
    | .error r => .error r
    | .ok ls =>
      if wordsFrom [] text = [] then .ok ls
      else
        match readLine (wordsFrom [] text) with
        | some l => .ok (l :: ls)
        | none => .error .scriptError

/-- R310: the text of a script read and assembled. -/
def loadScript (c : Config) (text : List Char) : Except Refusal (List (Option Pins)) :=
  match readLines (linesFrom [] false text) with
  | .ok ls => assembleScript c ls
  | .error r => .error r

/-- R310: WAIT is over when `STATUS.DONE = 1`. -/
def waitOver (s : State) : Bool := doneFlag s

end Sys2Proof.Machine
end

