-- ==== Sys2Proof/Safety.lean ====
section
/-! DEFINITION. What holds in every state a run reaches (`Inv`), and what a safe run is: no step of it is a
fault. -/

namespace Sys2Proof.Safety

open Sys2Proof.Machine

/-- The bytes summed into the checksum of the command frame being sent (R304): offsets `6..9+n`. -/
def requestBody (s : State) : List Byte := frameBody ptCmd s.op (s.par.take s.n)

/-- The command frame of the request held (R401). -/
def requestFrame (s : State) : List Byte := frameBytes ptCmd s.op (s.par.take s.n)

/-- R105, R501: the result registers as an accepted START clears them. -/
def ResultsCleared (s : State) : Prop :=
  s.outcome = .none ∧ s.detail = 0 ∧ s.payloadLen = 0 ∧ s.rxCksField = 0 ∧ s.rxCksCalc = 0 ∧ s.rxAddr = 0

/-- R120: the engine registers as RESET leaves them. -/
def RegistersAtReset (s : State) : Prop :=
  s.latched = false ∧ s.txIdx = 0 ∧ s.txSum = 0 ∧ s.rxCnt = 0 ∧ s.rxSum = 0 ∧ s.rxBuf = [] ∧ ResultsCleared s

/-- R102, R450: the request registers hold the catalog entry of the opcode, and a frame `encode` can build. -/
def RequestHeld (s : State) : Prop :=
  s.latched = true ∧ lookupCatalog s.cfg.catalog s.op = some ⟨s.op, s.n, s.expLen⟩ ∧ s.n ≤ maxParams

/-- R108: the detail bytes an outcome may carry. -/
def DetailLegal : OutcomeName → Byte → Prop
  | .none, d => d = 0
  | .ok, d => d = 0
  | .deviceRejected, d => d ≠ 0
  | .timeout, _ => True
  | .malformed, d => d = 1 ∨ d = 2 ∨ d = 3 ∨ d = 4
  | .refused, d => d = 1

/-- The states a run from reset can be in. -/
structure Inv (s : State) : Prop where
  /-- R454 -/
  catalog : catalogWellFormed s.cfg = true
  /-- the buffer keeps its canonical form -/
  bufferForm : Memory.wf s.rxBuf = true
  /-- R208: nothing is stored at or past `R_MAX` -/
  bufferRange : ∀ a b, Memory.read s.rxBuf a = some b → a < s.cfg.rMax
  /-- R102: `par` has `P_MAX` bytes -/
  parWidth : s.par.length = s.cfg.pMax
  /-- R108 -/
  detail : DetailLegal s.outcome s.detail
  /-- R701: `IDLE` is entered by RESET only -/
  idle : s.st = .idle → RegistersAtReset s
  /-- R403, R504: the framer is inside the frame and its running checksum is that of the bytes sent -/
  sending : s.st = .sending → RequestHeld s ∧ ResultsCleared s ∧ s.txIdx < 12 + s.n ∧
    s.txSum = sum16 ((requestBody s).take (s.txIdx - 6)) ∧ s.rxCnt = 0 ∧ s.rxSum = 0
  /-- R410, R506: the receiver is inside the reply, holds every byte taken, and its running checksum is theirs -/
  awaiting : s.st = .awaiting → RequestHeld s ∧ ResultsCleared s ∧ s.txIdx = 12 + s.n ∧
    s.txSum = sum16 (requestBody s) ∧ s.rxCnt < s.expLen ∧
    ∃ bytes, rxReadBytes s 0 s.rxCnt = some bytes ∧ s.rxSum = sum16 ((bytes.take (s.expLen - 2)).drop 6)
  /-- R108, R551: a finished exchange names its outcome, and an `OK` one holds its whole reply -/
  done : s.st = .done → s.outcome ≠ .none ∧
    (s.outcome = .ok → minFrame ≤ s.expLen ∧ s.payloadLen = s.expLen - minFrame ∧
      ∃ bytes, rxReadBytes s 0 s.expLen = some bytes) ∧
    (s.outcome ≠ .ok → s.payloadLen = 0)

/-- A step that is no fault. -/
def NoFault (o : Host.Outcome State Fault Refusal) : Prop := ∀ r, o ≠ .fault r

/-- `k` steps, stopping at the first fault or refusal: what Host.Core.run does on this machine
(`runSteps_eq_core_run` in Laws). -/
def runSteps : Nat → State → Host.Outcome State Fault Refusal
  | 0, s => .next s
  | k + 1, s =>
    match step s with
    | .next t => runSteps k t
    | .fault r => .fault r
    | .refused r => .refused r

/-- A safe run: `k` steps from `s` reach no fault. -/
def SafeRun (k : Nat) (s : State) : Prop := NoFault (runSteps k s)

end Sys2Proof.Safety
end

