-- ==== Sys2Proof/Certificates/Slice0/Obligations.lean ====
section
/-! DEFINITION. The statements for the provers, and the predicates they are written in. `loadInput s` is the state
an engine step sees: this step's pins, the bytes that have arrived and the clock (R117). -/

namespace Sys2Proof.Claims

open Sys2Proof.Machine Sys2Proof.Safety

/-- The configuration, the channel, the clock and the inputs are those of `s` (R116, R117). -/
def EnvKept (s t : State) : Prop :=
  t.cfg = s.cfg ∧ t.chanRx = s.chanRx ∧ t.chanTx = s.chanTx ∧ t.now = s.now ∧ t.pins = s.pins ∧ t.inputs = s.inputs

/-- The latched request registers are those of `s` (R102). -/
def RequestKept (s t : State) : Prop :=
  t.latched = s.latched ∧ t.op = s.op ∧ t.n = s.n ∧ t.par = s.par ∧ t.expLen = s.expLen ∧ t.deadline = s.deadline

/-- The transmit and receive counters and running checksums are those of `s` (R103, R104). -/
def CountersKept (s t : State) : Prop :=
  t.txIdx = s.txIdx ∧ t.txSum = s.txSum ∧ t.rxCnt = s.rxCnt ∧ t.rxSum = s.rxSum

/-- Every byte of the receive buffer reads as in `s` (R104). -/
def BufferKept (s t : State) : Prop := ∀ a, Memory.read t.rxBuf a = Memory.read s.rxBuf a

/-- The result registers are those of `s` (R105). -/
def ResultsKept (s t : State) : Prop :=
  t.outcome = s.outcome ∧ t.detail = s.detail ∧ t.payloadLen = s.payloadLen ∧ t.rxCksField = s.rxCksField ∧
    t.rxCksCalc = s.rxCksCalc ∧ t.rxAddr = s.rxAddr

/-- R502: `begin(n', E')` of the entry `e` for opcode `o` and request bytes `ps`. -/
def Begun (o : Byte) (e : CatalogEntry) (ps : List Byte) (s t : State) : Prop :=
  t.st = .sending ∧ busy t = true ∧ doneFlag t = false ∧ t.latched = true ∧ t.op = o ∧ t.n = e.n ∧
    t.expLen = e.expLen ∧ t.par.take e.n = ps.take e.n ∧ t.par.drop e.n = s.par.drop e.n ∧
    t.deadline = s.pins.reqDeadline ∧ t.txIdx = 0 ∧ t.txSum = 0 ∧ t.rxCnt = 0 ∧ t.rxSum = 0 ∧
    ResultsCleared t ∧ BufferKept s t ∧ EnvKept s t

/-- R503: REFUSED, UNKNOWN_OPCODE. -/
def RequestRefused (s t : State) : Prop :=
  t.st = .done ∧ t.outcome = .refused ∧ t.detail = 0x01 ∧ t.payloadLen = 0 ∧ t.rxCksField = 0 ∧ t.rxCksCalc = 0 ∧
    t.rxAddr = 0 ∧ RequestKept s t ∧ CountersKept s t ∧ BufferKept s t ∧ EnvKept s t

/-- R427: the complete reply of `k` bytes to the command `o` is in the buffer. -/
def ReplyComplete (o : Byte) (k : Nat) (s : State) : Prop :=
  s.st = .awaiting ∧ s.latched = true ∧ s.op = o ∧ s.expLen = k ∧ s.rxCnt = k

/-- How a reply with the right marker, packet type and length ends (R420, R421, R550): its exposures, then the
checksum check, then the confirmation byte. -/
def ReplyEnds (addr : U32) (conf : Byte) (cks : U16) (s t : State) : Prop :=
  t.st = .done ∧ t.rxCksField = cks ∧ t.rxCksCalc = s.rxSum ∧ t.rxAddr = addr ∧
    (s.cfg.rxVerifyChecksum = true → s.rxSum ≠ cks →
      t.outcome = .malformed ∧ t.detail = 0x01 ∧ t.payloadLen = s.payloadLen) ∧
    ((s.cfg.rxVerifyChecksum = false ∨ s.rxSum = cks) → conf = 0x00 →
      t.outcome = .ok ∧ t.detail = 0x00 ∧ t.payloadLen = s.expLen - 12) ∧
    ((s.cfg.rxVerifyChecksum = false ∨ s.rxSum = cks) → conf ≠ 0x00 →
      t.outcome = .deviceRejected ∧ t.detail = conf ∧ t.payloadLen = 0)

/-- The step sees neither RESET nor START. -/
def NoStrobe (s : State) : Prop := (loadInput s).pins.reset = false ∧ (loadInput s).pins.start = false

/-- The request port's pins replaced: START, REQ_OPCODE, REQ_PARAM and REQ_DEADLINE (R110). -/
def withRequest (start : Bool) (o : Byte) (ps : List Byte) (d : Nat) (s : State) : State :=
  { s with pins := { s.pins with start := start, reqOpcode := o, reqParam := ps, reqDeadline := d } }

/-- R404: what the channel has accepted since `ChanTx` was `base` is the part of the request's frame sent so far. -/
def SentSoFar (base : List Byte) (s : State) : Prop :=
  (s.st = .sending → s.chanTx = base ++ (requestFrame s).take s.txIdx) ∧
    (s.st = .awaiting → s.chanTx = base ++ requestFrame s) ∧
    (s.st = .done → s.chanTx = base ++ requestFrame s)

/-- The start of a step in `SENDING` with the framer running: no strobe, the request held. -/
def SendingNow (s : State) : Prop :=
  catalogWellFormed s.cfg = true ∧ NoStrobe s ∧ s.st = .sending ∧ s.latched = true

/-- The start of a step in `AWAITING` with the receiver running: no strobe, the request held. -/
def AwaitingNow (s : State) : Prop :=
  catalogWellFormed s.cfg = true ∧ NoStrobe s ∧ s.st = .awaiting ∧ s.latched = true

/-- A step input with neither strobe whose channel accepts the presented byte. -/
def Accepts (d : StepInput) : Prop := d.pins.reset = false ∧ d.pins.start = false ∧ d.pins.txAccept = true

/-- How far `now` advances over a list of step inputs. -/
def totalTick : List StepInput → Nat
  | [] => 0
  | d :: rest => d.tick + totalTick rest

/-- R310 gives an EXEC of this mnemonic a byte count: a raw opcode has one always, and a named mnemonic where the catalog
has its opcode. -/
def CountStated (c : Config) (m : ScriptMnemonic) : Prop :=
  m = .op m.opcode ∨ lookupCatalog c.catalog m.opcode ≠ none

end Sys2Proof.Claims

open Sys2Proof Sys2Proof.Machine Sys2Proof.Safety Sys2Proof.Claims

/-! ## Instructions -/

/-- R502, for the three commands and every catalog entry of their opcodes that takes the bytes the command has. -/
def Obligations.CommandsBeginExchange : Prop :=
  ∀ (s : State) (p0 p1 p2 p3 : Byte) (e : CatalogEntry), busy s = false →
    (lookupCatalog s.cfg.catalog 0x13 = some e → e.n ≤ 4 →
      ∃ t, exec (.verifyPassword p0 p1 p2 p3) s = .next t ∧ Begun 0x13 e [p0, p1, p2, p3] s t) ∧
    (lookupCatalog s.cfg.catalog 0x3A = some e → e.n = 0 →
      ∃ t, exec .checkFirmware s = .next t ∧ Begun 0x3A e [] s t) ∧
    (lookupCatalog s.cfg.catalog 0x35 = some e → e.n ≤ 4 →
      ∃ t, exec (.configLed p0 p1 p2 p3) s = .next t ∧ Begun 0x35 e [p0, p1, p2, p3] s t)

/-- R501, R502: an accepted START of any opcode in the catalog, one a platform added (R456) among them, clears the
results and begins the exchange. -/
def Obligations.StartBeginsExchange : Prop :=
  ∀ (s : State) (e : CatalogEntry), catalogWellFormed s.cfg = true → busy s = false →
    (loadInput s).pins.reset = false → (loadInput s).pins.start = true →
    lookupCatalog s.cfg.catalog (loadInput s).pins.reqOpcode = some e → e.n ≤ 65532 →
    e.n ≤ (loadInput s).pins.reqParam.length →
    ∃ t, step s = .next t ∧ Begun (loadInput s).pins.reqOpcode e (loadInput s).pins.reqParam (loadInput s) t

/-- R503: a command, or a raw request on the pins, whose opcode the catalog lacks. -/
def Obligations.UnknownOpcodeIsRefused : Prop :=
  (∀ (s : State) (p0 p1 p2 p3 : Byte), busy s = false →
    (lookupCatalog s.cfg.catalog 0x13 = none →
      ∃ t, exec (.verifyPassword p0 p1 p2 p3) s = .next t ∧ RequestRefused s t) ∧
    (lookupCatalog s.cfg.catalog 0x3A = none → ∃ t, exec .checkFirmware s = .next t ∧ RequestRefused s t) ∧
    (lookupCatalog s.cfg.catalog 0x35 = none →
      ∃ t, exec (.configLed p0 p1 p2 p3) s = .next t ∧ RequestRefused s t)) ∧
  ∀ s : State, catalogWellFormed s.cfg = true → busy s = false → (loadInput s).pins.reset = false →
    (loadInput s).pins.start = true → lookupCatalog s.cfg.catalog (loadInput s).pins.reqOpcode = none →
    ∃ t, step s = .next t ∧ RequestRefused (loadInput s) t ∧ status t = 0x015B

/-- The model's choice (log entry 10): a command with fewer operand bytes than a changed catalog entry asks for is
a script error (R310, I23). -/
def Obligations.ShortRequestIsScriptError : Prop :=
  ∀ (s : State) (p0 p1 p2 p3 : Byte) (e : CatalogEntry), busy s = false → e.n ≤ 65532 →
    (lookupCatalog s.cfg.catalog 0x13 = some e → 4 < e.n →
      exec (.verifyPassword p0 p1 p2 p3) s = .refused .scriptError) ∧
    (lookupCatalog s.cfg.catalog 0x3A = some e → 0 < e.n → exec .checkFirmware s = .refused .scriptError) ∧
    (lookupCatalog s.cfg.catalog 0x35 = some e → 4 < e.n →
      exec (.configLed p0 p1 p2 p3) s = .refused .scriptError)

/-- R704: the model refuses a START while BUSY, and the engine itself ignores it: whatever the request port
carries in `SENDING` or `AWAITING`, the engine does what it does without. -/
def Obligations.StartWhileBusy : Prop :=
  (∀ (s : State) (p0 p1 p2 p3 : Byte), busy s = true →
    exec (.verifyPassword p0 p1 p2 p3) s = .refused .startWhileBusy ∧
    exec .checkFirmware s = .refused .startWhileBusy ∧
    exec (.configLed p0 p1 p2 p3) s = .refused .startWhileBusy) ∧
  (∀ s : State, catalogWellFormed s.cfg = true → busy s = true → (loadInput s).pins.reset = false →
    (loadInput s).pins.start = true → step s = .refused .startWhileBusy) ∧
  ∀ (s t : State) (start : Bool) (o : Byte) (ps : List Byte) (d : Nat), busy s = true →
    engineStep s = .next t → engineStep (withRequest start o ps d s) = .next (withRequest start o ps d t)

/-- The frame of the three commands: a command writes the request registers and the counters, or, refused, none of
them; it stores no byte in the receive buffer and touches no channel. -/
def Obligations.CommandFrame : Prop :=
  ∀ (s t : State) (i : Instr), i.isReply = false → exec i s = .next t →
    BufferKept s t ∧ EnvKept s t ∧ t.payloadLen = 0 ∧ t.rxCksField = 0 ∧ t.rxCksCalc = 0 ∧ t.rxAddr = 0 ∧
      (t.st = .sending → t.par.drop t.n = s.par.drop t.n) ∧
      (t.st = .done → RequestKept s t ∧ CountersKept s t) ∧ (t.st = .sending ∨ t.st = .done)

/-- R550, for the three acknowledgements: a complete reply ends its exchange, for every address, confirmation byte
and carried checksum. -/
def Obligations.AcknowledgementsEndExchange : Prop :=
  ∀ (s : State) (addr : U32) (conf : Byte) (payload : List Byte) (cks : U16),
    (ReplyComplete 0x13 12 s →
      ∃ t, exec (.ackVerifyPassword addr conf cks) s = .next t ∧ ReplyEnds addr conf cks s t) ∧
    (ReplyComplete 0x3A 44 s →
      ∃ t, exec (.ackCheckFirmware addr conf payload cks) s = .next t ∧ ReplyEnds addr conf cks s t) ∧
    (ReplyComplete 0x35 12 s →
      ∃ t, exec (.ackConfigLed addr conf cks) s = .next t ∧ ReplyEnds addr conf cks s t)

/-- The frame of the three acknowledgements: only the result registers and `st` change. -/
def Obligations.AcknowledgementFrame : Prop :=
  ∀ (s t : State) (i : Instr), i.isReply = true → exec i s = .next t →
    RequestKept s t ∧ CountersKept s t ∧ BufferKept s t ∧ EnvKept s t

/-- The model's choice (log entry 9): an acknowledgement that is not the complete reply in the buffer changes
nothing. -/
def Obligations.AcknowledgementNotDueChangesNothing : Prop :=
  ∀ (s : State) (i : Instr), i.isReply = true → ¬ ReplyComplete i.command i.frameLength s → exec i s = .next s

/-! ## A step runs the decoded instruction -/

/-- A START in `IDLE` or `DONE` whose request is one of the table's commands runs that command, and the poll that
takes the last byte of a reply that is one of the table's acknowledgements runs that acknowledgement. -/
def Obligations.StepRunsDecodedInstruction : Prop :=
  (∀ (s : State) (i : Instr), catalogWellFormed s.cfg = true → busy s = false →
    (loadInput s).pins.reset = false → (loadInput s).pins.start = true → fetchCommand (loadInput s) = some i →
    step s = exec i (loadInput s)) ∧
  ∀ (s : State) (i : Instr) (b : Byte) (q : List Byte), AwaitingNow s → (loadInput s).now < s.deadline →
    (loadInput s).chanRx = b :: q → s.rxCnt + 1 = s.expLen → s.expLen ≤ s.cfg.rMax →
    fetchReply (storeByte b q (loadInput s)) = some i →
    step s = exec i (storeByte b q (loadInput s))

/-- R310: running the command a request decodes to is running the request itself, for every catalog. -/
def Obligations.CommandAgreesWithRawRequest : Prop :=
  ∀ s : State, startStep s = startRequest s.pins.reqOpcode s.pins.reqParam s

/-- R507: running the acknowledgement a complete reply decodes to is running decode and interpret on the buffer. -/
def Obligations.AcknowledgementAgreesWithBuffer : Prop :=
  ∀ s : State, s.st = .awaiting → s.latched = true → s.rxCnt = s.expLen → finishStep s = finish s

/-! ## Reset -/

/-- R700, R120: RESET in any state. `latched = false` says that `op`, `n`, `E`, `par` and `deadline` have no
value. -/
def Obligations.ResetStep : Prop :=
  ∀ s : State, catalogWellFormed s.cfg = true → (loadInput s).pins.reset = true →
    ∃ t, step s = .next t ∧ t.st = .idle ∧ RegistersAtReset t ∧ status t = 0 ∧
      (∀ i, rxRead t i = none) ∧ (∀ k, payloadAt t k = none) ∧ EnvKept (loadInput s) t

/-- R702: the model's initial state is the state RESET leaves. -/
def Obligations.InitialStateIsResetState : Prop :=
  resetEngine State.reset = State.reset ∧ State.reset.st = .idle ∧ RegistersAtReset State.reset ∧
    status State.reset = 0

/-! ## Sending -/

/-- R504, R403: an accepted byte is summed at offsets `6..9+n`, appended to `ChanTx` and passed; the last one enters
`AWAITING`; a refused byte changes nothing. -/
def Obligations.SendStep : Prop :=
  ∀ (s : State) (b : Byte), SendingNow s → frameByte s s.txIdx = some b →
    ((loadInput s).pins.txAccept = false → step s = .next (loadInput s)) ∧
    ((loadInput s).pins.txAccept = true →
      ∃ t, step s = .next t ∧ t.txIdx = s.txIdx + 1 ∧ t.chanTx = s.chanTx ++ [b] ∧
        (6 ≤ s.txIdx ∧ s.txIdx ≤ 9 + s.n → t.txSum.toNat = (s.txSum.toNat + b.toNat) % 65536) ∧
        (s.txIdx < 6 ∨ 9 + s.n < s.txIdx → t.txSum = s.txSum) ∧
        (s.txIdx + 1 = 12 + s.n → t.st = .awaiting) ∧ (s.txIdx + 1 ≠ 12 + s.n → t.st = .sending) ∧
        RequestKept s t ∧ ResultsKept s t ∧ BufferKept s t ∧ t.rxCnt = s.rxCnt ∧ t.rxSum = s.rxSum ∧
        t.cfg = s.cfg ∧ t.chanRx = (loadInput s).chanRx ∧ t.now = (loadInput s).now)

/-- R404, R402: the framer's byte at every offset is the byte of the encoded frame there, once the running checksum
is that of the summed bytes where it is sent. -/
def Obligations.FramerByteIsEncodedByte : Prop :=
  ∀ (s : State) (i : Nat), s.n ≤ s.par.length → i < 12 + s.n →
    (10 + s.n ≤ i → s.txSum = sum16 (requestBody s)) → frameByte s i = (requestFrame s)[i]?

/-- R404: while a request is being sent and after, `ChanTx` holds, after what it held before, exactly the part of
the encoded command frame sent so far; every step without RESET or START keeps that. -/
def Obligations.SentFrameInvariant : Prop :=
  ∀ (base : List Byte) (s t : State), Inv s → NoStrobe s → SentSoFar base s → step s = .next t →
    SentSoFar base t

/-- R404: with a channel that accepts every byte, a request just begun sends exactly `encode(PT_CMD, op, par)` in
`F = 12 + n` steps and enters `AWAITING`. -/
def Obligations.AcceptingChannelSendsEncodedFrame : Prop :=
  ∀ (s : State) (ds : List StepInput), Inv s → s.st = .sending → s.txIdx = 0 → s.inputs = ds →
    ds.length = 12 + s.n → (∀ d ∈ ds, Accepts d) →
    ∃ t bytes, runSteps (12 + s.n) s = .next t ∧ t.st = .awaiting ∧
      encodeFrame 0x01 s.op (s.par.take s.n) = some bytes ∧ t.chanTx = s.chanTx ++ bytes

/-- R514: no deadline is checked in `SENDING`: whatever `now` and `deadline` are, the step ends in `SENDING` or
`AWAITING` with no outcome recorded. -/
def Obligations.SendingIgnoresDeadline : Prop :=
  ∀ s t : State, NoStrobe s → s.st = .sending → step s = .next t →
    (t.st = .sending ∨ t.st = .awaiting) ∧ ResultsKept s t

/-! ## Receiving -/

/-- R505, R506, R508: the deadline check, the empty poll, and a byte before the last. -/
def Obligations.AwaitStep : Prop :=
  ∀ s : State, AwaitingNow s →
    (s.deadline ≤ (loadInput s).now →
      ∃ t, step s = .next t ∧ t.st = .done ∧ t.outcome = .timeout ∧
        (s.rxCnt < 256 → t.detail.toNat = s.rxCnt) ∧ t.payloadLen = s.payloadLen ∧ t.rxCksField = s.rxCksField ∧
        t.rxCksCalc = s.rxCksCalc ∧ t.rxAddr = s.rxAddr ∧ RequestKept s t ∧ CountersKept s t ∧ BufferKept s t ∧
        EnvKept (loadInput s) t) ∧
    ((loadInput s).now < s.deadline → (loadInput s).chanRx = [] → step s = .next (loadInput s)) ∧
    ∀ (b : Byte) (q : List Byte), (loadInput s).now < s.deadline → (loadInput s).chanRx = b :: q →
      s.rxCnt + 1 < s.expLen → s.expLen ≤ s.cfg.rMax →
      ∃ t, step s = .next t ∧ t.st = .awaiting ∧ t.rxCnt = s.rxCnt + 1 ∧ t.chanRx = q ∧
        Memory.read t.rxBuf s.rxCnt = some b ∧
        (∀ a, a ≠ s.rxCnt → Memory.read t.rxBuf a = Memory.read s.rxBuf a) ∧
        (6 ≤ s.rxCnt ∧ s.rxCnt + 3 ≤ s.expLen → t.rxSum.toNat = (s.rxSum.toNat + b.toNat) % 65536) ∧
        (s.rxCnt < 6 ∨ s.expLen < s.rxCnt + 3 → t.rxSum = s.rxSum) ∧
        RequestKept s t ∧ ResultsKept s t ∧ t.txIdx = s.txIdx ∧ t.txSum = s.txSum ∧ t.cfg = s.cfg ∧
        t.chanTx = s.chanTx ∧ t.now = (loadInput s).now

/-- R410: bytes taken one after another from the first on lie in the buffer in order, and the running checksum is
the sum of those at offsets `6..E-3`. -/
def Obligations.ReceivedBytesAreSummed : Prop :=
  ∀ (s : State) (bs : List Byte), s.rxCnt = 0 → s.rxSum = 0 → 12 ≤ s.expLen → bs.length ≤ s.expLen →
    (takeBytes bs s).rxCnt = bs.length ∧ rxReadBytes (takeBytes bs s) 0 bs.length = some bs ∧
      (takeBytes bs s).rxSum = sum16 ((bs.take (s.expLen - 2)).drop 6)

/-- R507: the step that takes the `E`-th byte decodes and interprets it, and is `DONE` with an outcome of the
reply. -/
def Obligations.LastByteEndsExchange : Prop :=
  ∀ (s : State) (b : Byte) (q bytes : List Byte), AwaitingNow s → (loadInput s).now < s.deadline →
    (loadInput s).chanRx = b :: q → s.rxCnt + 1 = s.expLen → 12 ≤ s.expLen → s.expLen ≤ s.cfg.rMax →
    rxReadBytes s 0 s.rxCnt = some bytes →
    ∃ t, step s = .next t ∧ finish (storeByte b q (loadInput s)) = .next t ∧ t.st = .done ∧
      (t.outcome = .ok ∨ t.outcome = .deviceRejected ∨ t.outcome = .malformed) ∧ t.chanRx = q

/-- R420 to R424, R550, R620: decode and interpretation of the `E` bytes in the buffer, in terms of its bytes: the
exposures always, then the first failing check names the reason, then the confirmation byte. -/
def Obligations.DecodeChecksInOrder : Prop :=
  ∀ (s : State) (bytes : List Byte), 12 ≤ s.expLen → rxReadBytes s 0 s.expLen = some bytes →
    ∃ (t : State) (m a p l : List Byte) (conf : Byte) (payload k : List Byte),
      finish s = .next t ∧ bytes = m ++ a ++ p ++ l ++ [conf] ++ payload ++ k ∧
      m.length = 2 ∧ a.length = 4 ∧ p.length = 1 ∧ l.length = 2 ∧ k.length = 2 ∧
      t.st = .done ∧ t.rxCksField.toNat = beNat k ∧ t.rxCksCalc = s.rxSum ∧ t.rxAddr.toNat = beNat a ∧
      (s.cfg.rxVerifyChecksum = true ∧ s.rxSum.toNat ≠ beNat k →
        t.outcome = .malformed ∧ t.detail = 0x01 ∧ t.payloadLen = s.payloadLen) ∧
      ((s.cfg.rxVerifyChecksum = true → s.rxSum.toNat = beNat k) →
        (m ≠ [0xEF, 0x01] → t.outcome = .malformed ∧ t.detail = 0x02 ∧ t.payloadLen = s.payloadLen) ∧
        (m = [0xEF, 0x01] → p ≠ [0x07] →
          t.outcome = .malformed ∧ t.detail = 0x03 ∧ t.payloadLen = s.payloadLen) ∧
        (m = [0xEF, 0x01] → p = [0x07] → beNat l ≠ s.expLen - 9 →
          t.outcome = .malformed ∧ t.detail = 0x04 ∧ t.payloadLen = s.payloadLen) ∧
        (m = [0xEF, 0x01] → p = [0x07] → beNat l = s.expLen - 9 →
          (conf = 0x00 → t.outcome = .ok ∧ t.detail = 0x00 ∧ t.payloadLen = s.expLen - 12) ∧
          (conf ≠ 0x00 → t.outcome = .deviceRejected ∧ t.detail = conf ∧ t.payloadLen = 0)))

/-- R513: a deadline already past when `AWAITING` is entered: TIMEOUT with DETAIL 0, and no byte consumed even
where a whole reply is waiting. -/
def Obligations.PastDeadlineTimesOutAtOnce : Prop :=
  ∀ s : State, Inv s → NoStrobe s → s.st = .awaiting → s.rxCnt = 0 → s.deadline ≤ (loadInput s).now →
    ∃ t, step s = .next t ∧ t.st = .done ∧ t.outcome = .timeout ∧ t.detail = 0 ∧ t.chanRx = (loadInput s).chanRx

/-- R515: once the inputs of `k` steps carry `now` to the deadline, with no strobe among them, the exchange has left
`AWAITING` within those `k` steps. -/
def Obligations.DeadlineBoundsAwaiting : Prop :=
  ∀ (s : State) (ds : List StepInput), Inv s → s.st = .awaiting → s.inputs = ds → ds ≠ [] →
    (∀ d ∈ ds, d.pins.reset = false ∧ d.pins.start = false) → s.deadline ≤ s.now + totalTick ds →
    ∃ t, runSteps ds.length s = .next t ∧ t.st = .done ∧ t.outcome ≠ .none

/-- R425: decode looks at no address byte: two replies that differ in their address alone end alike, but for
`RX_ADDR`. -/
def Obligations.AddressIsNotChecked : Prop :=
  ∀ (f : FrameFields) (addr : U32) (s : State),
    finishFields { f with addr := addr } s = { finishFields f s with rxAddr := addr }

/-- R551, R114: in `DONE` after `OK` the host reads the `E - 12` bytes from `RxBuf[10]` on; after any other outcome
it is given no payload. -/
def Obligations.PayloadExposedOnlyAfterOk : Prop :=
  ∀ s : State, Inv s → s.st = .done →
    (s.outcome = .ok → s.payloadLen = s.expLen - 12 ∧
      ∀ k, k < s.expLen - 12 → ∃ b, Memory.read s.rxBuf (10 + k) = some b ∧ payloadAt s k = some b) ∧
    (s.outcome ≠ .ok → s.payloadLen = 0 ∧ ∀ k, payloadAt s k = none)

/-- I11, R120: a send step before any START latched `n` is a fault, and so is the deadline check before any START
latched `deadline`. That `latched = false` means no value is the model's mark, DEDUCED (log entry 1). -/
def Obligations.ReadWithoutValueFaults : Prop :=
  ∀ s : State, catalogWellFormed s.cfg = true → NoStrobe s → busy s = true → s.latched = false →
    step s = .fault .noValueRegister

/-! ## The sequencer -/

/-- R510: the transitions are exactly these. -/
def Obligations.TransitionsAreExactlyThese : Prop :=
  ∀ s t : State, step s = .next t →
    ((loadInput s).pins.reset = true ∧ t.st = .idle) ∨
    ((loadInput s).pins.reset = false ∧
      (((s.st = .idle ∨ s.st = .done) ∧ (loadInput s).pins.start = true ∧
          lookupCatalog s.cfg.catalog (loadInput s).pins.reqOpcode ≠ none ∧ t.st = .sending) ∨
       ((s.st = .idle ∨ s.st = .done) ∧ (loadInput s).pins.start = true ∧
          lookupCatalog s.cfg.catalog (loadInput s).pins.reqOpcode = none ∧ t.st = .done ∧ t.outcome = .refused) ∨
       ((s.st = .idle ∨ s.st = .done) ∧ (loadInput s).pins.start = false ∧ t.st = s.st) ∨
       (s.st = .sending ∧ (loadInput s).pins.txAccept = true ∧ s.txIdx + 1 = 12 + s.n ∧ t.st = .awaiting) ∨
       (s.st = .sending ∧ ((loadInput s).pins.txAccept = false ∨ s.txIdx + 1 ≠ 12 + s.n) ∧ t.st = .sending) ∨
       (s.st = .awaiting ∧ s.deadline ≤ (loadInput s).now ∧ t.st = .done ∧ t.outcome = .timeout) ∨
       (s.st = .awaiting ∧ (loadInput s).now < s.deadline ∧ (loadInput s).chanRx ≠ [] ∧ s.rxCnt + 1 = s.expLen ∧
          t.st = .done ∧ (t.outcome = .ok ∨ t.outcome = .deviceRejected ∨ t.outcome = .malformed)) ∨
       (s.st = .awaiting ∧ (loadInput s).now < s.deadline ∧
          ((loadInput s).chanRx = [] ∨ s.rxCnt + 1 ≠ s.expLen) ∧ t.st = .awaiting)))

/-- R102, R512: no byte, poll or send step changes the request latched, its deadline among it, for the whole
exchange. -/
def Obligations.LatchedRequestIsStable : Prop :=
  ∀ s t : State, busy s = true → (loadInput s).pins.reset = false → step s = .next t → RequestKept s t

/-- R509: in `DONE`, and in `IDLE`, a step without START or RESET changes no engine state and takes no byte. -/
def Obligations.IdleAndDoneHold : Prop :=
  ∀ s : State, catalogWellFormed s.cfg = true → busy s = false → NoStrobe s →
    step s = .next (loadInput s) ∧ (loadInput s).st = s.st ∧ RequestKept s (loadInput s) ∧
      CountersKept s (loadInput s) ∧ BufferKept s (loadInput s) ∧ ResultsKept s (loadInput s) ∧
      (loadInput s).chanTx = s.chanTx ∧ ∃ arrived, (loadInput s).chanRx = s.chanRx ++ arrived

/-- R111, R112, R206: a step appends to `ChanTx` only the byte the framer presents, in `SENDING`, when the channel
accepts it; it takes from `ChanRx` only its head, in `AWAITING`, before the deadline. -/
def Obligations.ChannelTraffic : Prop :=
  ∀ s t : State, step s = .next t →
    (t.chanTx = s.chanTx ∨
      ∃ b, s.st = .sending ∧ (loadInput s).pins.txAccept = true ∧ presentedByte s = some b ∧
        t.chanTx = s.chanTx ++ [b]) ∧
    (t.chanRx = (loadInput s).chanRx ∨
      ∃ b, s.st = .awaiting ∧ (loadInput s).now < s.deadline ∧ (loadInput s).chanRx = b :: t.chanRx)

/-- R109: what sets and clears BUSY and DONE. -/
def Obligations.FlagsSetAndCleared : Prop :=
  ∀ s t : State, step s = .next t →
    (busy s = false → busy t = true → (loadInput s).pins.start = true ∧
      lookupCatalog s.cfg.catalog (loadInput s).pins.reqOpcode ≠ none) ∧
    (busy s = true → busy t = false → t.st = .done ∨ (loadInput s).pins.reset = true) ∧
    (t.st = .done ↔ doneFlag t = true) ∧
    (doneFlag s = true → doneFlag t = false →
      ((loadInput s).pins.start = true ∧ t.st = .sending) ∨ (loadInput s).pins.reset = true)

/-- R107, R108: the fields of the STATUS word. -/
def Obligations.StatusWordFields : Prop :=
  ∀ s : State,
    ((status s).extractLsb' 0 2 = match s.st with | .idle => 0 | .sending => 1 | .awaiting => 2 | .done => 3) ∧
    (status s).getLsbD 2 = (decide (s.st = .sending) || decide (s.st = .awaiting)) ∧
    (status s).getLsbD 3 = decide (s.st = .done) ∧
    ((status s).extractLsb' 4 3 = match s.outcome with
      | .none => 0 | .ok => 1 | .deviceRejected => 2 | .timeout => 3 | .malformed => 4 | .refused => 5) ∧
    (status s).getLsbD 7 = false ∧ (status s).extractLsb' 8 8 = s.detail ∧
    outcomeOfStatus (status s) = .ok s.outcome

/-- R113, R116: no step changes the catalog or the other parameters, and `now` never decreases: it advances by what
the step's input says. -/
def Obligations.ConfigFixedClockMonotone : Prop :=
  ∀ s t : State, step s = .next t → t.cfg = s.cfg ∧ s.now ≤ t.now ∧ t.now = (loadInput s).now

/-! ## The catalog -/

/-- R454: what a well-formed catalog is, that the default one is, and that an ill-formed one has no run. -/
def Obligations.CatalogWellFormedMeaning : Prop :=
  (∀ c : Config, catalogWellFormed c = true ↔
    (∀ e ∈ c.catalog, e.n ≤ c.pMax ∧ 12 ≤ e.expLen ∧ e.expLen ≤ c.rMax) ∧
      c.catalog.Pairwise (fun a b => a.opcode ≠ b.opcode)) ∧
  catalogWellFormed Config.default = true ∧
  ∀ s : State, catalogWellFormed s.cfg = false → step s = .refused .illFormedCatalog

/-- R450: the default catalog holds exactly three entries. -/
def Obligations.DefaultCatalogEntries : Prop :=
  ∀ (o : Byte) (e : CatalogEntry), lookupCatalog Config.default.catalog o = some e ↔
    (o = 0x13 ∧ e = ⟨0x13, 4, 12⟩) ∨ (o = 0x3A ∧ e = ⟨0x3A, 0, 44⟩) ∨ (o = 0x35 ∧ e = ⟨0x35, 4, 12⟩)

/-! ## Encoding -/

/-- One frame of each row, written out from R300, R301 and R450 to R453. -/
def Obligations.WrittenFramesDecode : Prop :=
  decodeFrame 0 [0xEF, 0x01, 0xFF, 0xFF, 0xFF, 0xFF, 0x01, 0x00, 0x07, 0x13, 0x12, 0x34, 0x56, 0x78, 0x01, 0x2F] =
    .ok (.verifyPassword 0x12 0x34 0x56 0x78, []) ∧
  decodeFrame 0 [0xEF, 0x01, 0xFF, 0xFF, 0xFF, 0xFF, 0x01, 0x00, 0x03, 0x3A, 0x00, 0x3E] = .ok (.checkFirmware, []) ∧
  decodeFrame 0 [0xEF, 0x01, 0xFF, 0xFF, 0xFF, 0xFF, 0x01, 0x00, 0x07, 0x35, 0x01, 0x50, 0x01, 0x00, 0x00, 0x8F] =
    .ok (.configLed 0x01 0x50 0x01 0x00, []) ∧
  decodeFrame 0x13 [0xEF, 0x01, 0x00, 0x00, 0x00, 0x01, 0x07, 0x00, 0x03, 0xFF, 0x01, 0x09] =
    .ok (.ackVerifyPassword 0x00000001 0xFF 0x0109, []) ∧
  decodeFrame 0x3A ([0xEF, 0x01, 0xFF, 0xFF, 0xFF, 0xFF, 0x07, 0x00, 0x23, 0x00] ++ List.replicate 32 0x41 ++
    [0x08, 0x4A]) = .ok (.ackCheckFirmware 0xFFFFFFFF 0x00 (List.replicate 32 0x41) 0x084A, []) ∧
  decodeFrame 0x35 [0xEF, 0x01, 0xFF, 0xFF, 0xFF, 0xFF, 0x07, 0x00, 0x03, 0x01, 0x00, 0x0B] =
    .ok (.ackConfigLed 0xFFFFFFFF 0x01 0x000B, [])

/-- Decoding the encoding of a well-formed instruction gives it back, with whatever follows it. -/
def Obligations.DecodeInvertsEncode : Prop :=
  ∀ (i : Instr) (rest : List Byte), i.wellFormed = true →
    decodeFrame i.command (encode i ++ rest) = .ok (i, rest)

/-- An acknowledgement frame is the encoding of the one instruction it decodes to: no bit of it is dropped. -/
def Obligations.EncodeInvertsReplyDecode : Prop :=
  ∀ (inFlight : Byte) (bytes rest : List Byte) (i : Instr), i.isReply = true →
    decodeFrame inFlight bytes = .ok (i, rest) → bytes = encode i ++ rest ∧ i.wellFormed = true ∧ i.command = inFlight

/-- R302: whatever decodes to an instruction has a header word that matches the instruction's row. -/
def Obligations.DecodedHeaderMatchesRow : Prop :=
  ∀ (inFlight : Byte) (bytes rest : List Byte) (i : Instr), decodeFrame inFlight bytes = .ok (i, rest) →
    ∃ h, headerOf bytes = some h ∧ h &&& i.row.mask = i.row.pattern

/-- R300, R303, R304, R400: the layout of an encoded frame, and the domain of `encode`. -/
def Obligations.EncodedFrameLayout : Prop :=
  ∀ (t o : Byte) (p : List Byte),
    (65532 < p.length → encodeFrame t o p = none) ∧
    (p.length ≤ 65532 → ∃ bytes hl ll hc lc, encodeFrame t o p = some bytes ∧
      bytes = [0xEF, 0x01, 0xFF, 0xFF, 0xFF, 0xFF, t, hl, ll, o] ++ p ++ [hc, lc] ∧
      bytes.length = 12 + p.length ∧ hl.toNat * 256 + ll.toNat = p.length + 3 ∧
      hc.toNat * 256 + lc.toNat =
        (t.toNat + hl.toNat + ll.toNat + o.toNat + (p.map BitVec.toNat).sum) % 65536)

/-- R429: the round trip. (a) `parse` inverts `encode`; (b) decode of an encoded acknowledgement is its reply, under
either value of `RX_VERIFY_CHECKSUM`; (c) decode of any other packet type is MALFORMED 0x03. -/
def Obligations.FrameRoundTrip : Prop :=
  (∀ (t o : Byte) (p bytes : List Byte), encodeFrame t o p = some bytes →
    ∃ f, parseFrame bytes = some f ∧ f.marker = 0xEF01 ∧ f.addr = 0xFFFFFFFF ∧ f.ptype = t ∧
      f.len.toNat = p.length + 3 ∧ f.code = o ∧ f.params = p ∧
      f.cks = sum16 ([t, hi8 (BitVec.ofNat 16 (p.length + 3)), lo8 (BitVec.ofNat 16 (p.length + 3)), o] ++ p)) ∧
  ∀ (s : State) (t o : Byte) (p bytes : List Byte), encodeFrame t o p = some bytes →
    12 + p.length ≤ s.cfg.rMax → s.expLen = 12 + p.length → s.rxCnt = 0 → s.rxSum = 0 →
    (t = 0x07 → ∃ u, finish (takeBytes bytes s) = .next u ∧ u.st = .done ∧
      (o = 0x00 → u.outcome = .ok ∧ u.detail = 0x00 ∧ u.payloadLen = p.length) ∧
      (o ≠ 0x00 → u.outcome = .deviceRejected ∧ u.detail = o) ∧
      rxReadBytes u 10 p.length = some p) ∧
    (t ≠ 0x07 → ∃ u, finish (takeBytes bytes s) = .next u ∧ u.st = .done ∧ u.outcome = .malformed ∧
      u.detail = 0x03 ∧ u.rxCksField = u.rxCksCalc)

/-! ## Scripts -/

/-- R310, R311: what the lines of a host script stand for, and the byte counts they may give, wherever R310 gives one. -/
def Obligations.ScriptLinesAssemble : Prop :=
  (bytesExpected Config.default ScriptMnemonic.verifyPassword.opcode = 4 ∧
    bytesExpected Config.default ScriptMnemonic.checkFirmware.opcode = 0 ∧
    bytesExpected Config.default ScriptMnemonic.configLed.opcode = 4) ∧
  (∀ (c : Config) (o : Byte), lookupCatalog c.catalog o = none →
    bytesExpected c (ScriptMnemonic.op o).opcode = 0) ∧
  (∀ (c : Config) (o : Byte) (e : CatalogEntry), lookupCatalog c.catalog o = some e → bytesExpected c o = e.n) ∧
  (∀ c : Config, assembleLine c .wait = .ok none ∧
    ∃ p, assembleLine c .reset = .ok (some p) ∧ p.reset = true ∧ p.start = false) ∧
  (∀ (c : Config) (d : Nat), assembleLine c (.exec .verifyPassword [] d) =
    assembleLine c (.exec .verifyPassword [0x00, 0x00, 0x00, 0x00] d)) ∧
  ∀ (c : Config) (m : ScriptMnemonic) (bytes : List Byte) (d : Nat), bytes ≠ [] ∨ m ≠ .verifyPassword →
    CountStated c m →
    (bytes.length = bytesExpected c m.opcode → ∃ p, assembleLine c (.exec m bytes d) = .ok (some p) ∧
      p.reset = false ∧ p.start = true ∧ p.reqOpcode = m.opcode ∧ p.reqParam = bytes ∧ p.reqDeadline = d) ∧
    (bytes.length ≠ bytesExpected c m.opcode → assembleLine c (.exec m bytes d) = .error .scriptError)

/-- The model's choice (log entry 22): a named mnemonic whose opcode the catalog lacks takes 0 bytes, the raw opcode's
count, and the pseudo-instruction's four bytes are counted like written ones. -/
def Obligations.MnemonicOutsideCatalogTakesNoBytes : Prop :=
  (∀ (c : Config) (m : ScriptMnemonic) (bytes : List Byte) (d : Nat), bytes ≠ [] ∨ m ≠ .verifyPassword →
    lookupCatalog c.catalog m.opcode = none →
    (bytes = [] → ∃ p, assembleLine c (.exec m bytes d) = .ok (some p) ∧
      p.reset = false ∧ p.start = true ∧ p.reqOpcode = m.opcode ∧ p.reqParam = [] ∧ p.reqDeadline = d) ∧
    (bytes ≠ [] → assembleLine c (.exec m bytes d) = .error .scriptError)) ∧
  ∀ (c : Config) (d : Nat), bytesExpected c 0x13 ≠ 4 →
    assembleLine c (.exec .verifyPassword [] d) = .error .scriptError

/-! ## Invariants -/

/-- The invariant holds right after reset. -/
def Obligations.InvAtReset : Prop := Inv State.reset

/-- Every step keeps the invariant: the buffer's canonical form and range (R208), the running checksums (R403, R410),
the framer inside the frame, the receiver inside the reply (R106), the outcome and detail codes (R108). -/
def Obligations.InvKeptByEveryStep : Prop :=
  ∀ s t : State, Inv s → step s = .next t → Inv t

/-- I11, R600: no run from a state that meets the invariant stops with a fault: no register or buffer byte is read
before it has a value, and nothing is stored outside the buffer. -/
def Obligations.RunsNeverFault : Prop :=
  ∀ (s : State) (k : Nat), Inv s → SafeRun k s
end

