-- ==== Sys2Proof/Laws/Codec.lean ====
section
/-! SUPPORT. Byte order, the 16-bit sum, and the shape of a frame. -/

namespace Sys2Proof

theorem be16_toNat (a b : Byte) : (be16 a b).toNat = a.toNat * 256 + b.toNat := by
  have := b.isLt
  rw [be16, BitVec.toNat_append, ← Nat.shiftLeft_add_eq_or_of_lt (by simpa using this), Nat.shiftLeft_eq]

@[simp] theorem be16_hi8_lo8 (v : U16) : be16 (hi8 v) (lo8 v) = v := by
  apply BitVec.eq_of_toNat_eq
  have := v.isLt
  simp only [be16_toNat, hi8, lo8, BitVec.extractLsb'_toNat, Nat.shiftRight_eq_div_pow]
  omega

@[simp] theorem hi8_be16 (a b : Byte) : hi8 (be16 a b) = a := by
  apply BitVec.eq_of_toNat_eq
  have := a.isLt
  have := b.isLt
  simp only [hi8, BitVec.extractLsb'_toNat, be16_toNat, Nat.shiftRight_eq_div_pow]
  omega

@[simp] theorem lo8_be16 (a b : Byte) : lo8 (be16 a b) = b := by
  apply BitVec.eq_of_toNat_eq
  have := a.isLt
  have := b.isLt
  simp only [lo8, BitVec.extractLsb'_toNat, be16_toNat, Nat.shiftRight_eq_div_pow]
  omega

theorem be32_toNat (a b c d : Byte) :
    (be32 a b c d).toNat = ((a.toNat * 256 + b.toNat) * 256 + c.toNat) * 256 + d.toNat := by
  have := b.isLt
  have := c.isLt
  have := d.isLt
  rw [be32, BitVec.toNat_append, ← Nat.shiftLeft_add_eq_or_of_lt (by simpa using this), Nat.shiftLeft_eq,
    BitVec.toNat_append, ← Nat.shiftLeft_add_eq_or_of_lt (by simpa using ‹c.toNat < _›), Nat.shiftLeft_eq,
    BitVec.toNat_append, ← Nat.shiftLeft_add_eq_or_of_lt (by simpa using ‹b.toNat < _›), Nat.shiftLeft_eq]

@[simp] theorem be32_bytes32 (v : U32) :
    be32 (v.extractLsb' 24 8) (v.extractLsb' 16 8) (v.extractLsb' 8 8) (v.extractLsb' 0 8) = v := by
  apply BitVec.eq_of_toNat_eq
  have := v.isLt
  simp only [be32_toNat, BitVec.extractLsb'_toNat, Nat.shiftRight_eq_div_pow]
  omega

/-- R11: a two-byte read as one number. -/
theorem beNat_pair (a b : Byte) : beNat [a, b] = (be16 a b).toNat := by
  simp [beNat, be16_toNat]

@[simp] theorem sum16_nil : sum16 [] = 0 := rfl

/-- R10: the sum, one byte at a time. -/
theorem sum16_snoc (s : List Byte) (b : Byte) : sum16 (s ++ [b]) = addSum (sum16 s) b := by
  simp [sum16]

@[simp] theorem frameBody_length (t o : Byte) (p : List Byte) : (frameBody t o p).length = 4 + p.length := by
  simp [frameBody]; omega

@[simp] theorem frameBytes_length (t o : Byte) (p : List Byte) : (frameBytes t o p).length = 12 + p.length := by
  simp [frameBytes, bytes32]; omega

@[simp] theorem ackBytes_length (a : U32) (c : Byte) (p : List Byte) (k : U16) :
    (ackBytes a c p k).length = 12 + p.length := by
  simp [ackBytes, bytes32]; omega

/-- The last two bytes of a tail are its checksum. -/
@[simp] theorem splitCks_snoc (ps : List Byte) (a b : Byte) : splitCks (ps ++ [a, b]) = some (ps, be16 a b) := by
  induction ps with
  | nil => rfl
  | cons x xs ih =>
    cases xs with
    | nil => rfl
    | cons y ys =>
      cases ys with
      | nil => simp [splitCks]
      | cons z zs =>
        simp only [List.cons_append] at ih ⊢
        simp only [splitCks] at ih ⊢
        rw [ih]

/-- A field value of at most 65535 survives its 16 bits. -/
theorem lenField_toNat {k : Nat} (h : k ≤ maxParams) : (lenField k).toNat = k + 3 := by
  simp only [lenField, BitVec.toNat_ofNat]
  unfold maxParams at h
  omega

end Sys2Proof
end

