-- ==== Sys2Proof/Laws/Decode.lean ====
section
/-! SUPPORT. What the decoder, the encoder and `parse` do, said once: each inversion lemma lists every way its
function answers an instruction. -/

namespace Sys2Proof

open Sys2Proof.Machine

theorem bytes32_eq (v : U32) :
    bytes32 v = [v.extractLsb' 24 8, v.extractLsb' 16 8, v.extractLsb' 8 8, v.extractLsb' 0 8] := rfl

/-- R202: the bytes of a double word are the bytes it was read from. -/
theorem bytes32_be32 (a b c d : Byte) : bytes32 (be32 a b c d) = [a, b, c, d] := by
  have h : (be32 a b c d).extractLsb' 24 8 = a ∧ (be32 a b c d).extractLsb' 16 8 = b ∧
      (be32 a b c d).extractLsb' 8 8 = c ∧ (be32 a b c d).extractLsb' 0 8 = d := by
    have := a.isLt
    have := b.isLt
    have := c.isLt
    have := d.isLt
    refine ⟨?_, ?_, ?_, ?_⟩ <;> apply BitVec.eq_of_toNat_eq <;>
      simp only [BitVec.extractLsb'_toNat, be32_toNat, Nat.shiftRight_eq_div_pow] <;> omega
  simp [bytes32_eq, h]

theorem eq_of_be16_eq {a b : Byte} {v : U16} (h : be16 a b = v) : a = hi8 v ∧ b = lo8 v := by
  subst h
  simp

/-- R303: two lengths in `encode`'s domain have different length fields. -/
theorem lenField_inj {j k : Nat} (hj : j ≤ maxParams) (hk : k ≤ maxParams) (h : lenField j = lenField k) : j = k := by
  have := congrArg BitVec.toNat h
  rw [lenField_toNat hj, lenField_toNat hk] at this
  omega

theorem encodeFrame_eq_some {t o : Byte} {p bytes : List Byte} :
    encodeFrame t o p = some bytes ↔ p.length ≤ maxParams ∧ bytes = frameBytes t o p := by
  unfold encodeFrame
  split <;> simp_all [eq_comm]

/-- A command frame reaches the command decoder with its opcode, length and tail. -/
theorem decodeFrame_frameBytes (x o : Byte) (p rest : List Byte) :
    decodeFrame x (frameBytes ptCmd o p ++ rest) = decodeCommand addressTx (lenField p.length) o
      (p ++ [hi8 (sum16 (frameBody ptCmd o p)), lo8 (sum16 (frameBody ptCmd o p))] ++ rest) := by
  simp [frameBytes, frameBody, bytes32_eq, decodeFrame]

/-- An acknowledgement frame reaches the reply decoder with its fields and tail. -/
theorem decodeFrame_ackBytes (x c : Byte) (a : U32) (k : U16) (p rest : List Byte) :
    decodeFrame x (ackBytes a c p k ++ rest) =
      decodeReply x a (lenField p.length) c (p ++ [hi8 k, lo8 k] ++ rest) := by
  have : ptAck ≠ ptCmd := by decide
  simp [ackBytes, bytes32_eq, decodeFrame, this]

/-- R411: `parse` of an acknowledgement frame. -/
theorem parseFrame_ackBytes (a : U32) (c : Byte) (p : List Byte) (k : U16) :
    parseFrame (ackBytes a c p k) = some (ackFields a c p k p.length) := by
  simp [ackBytes, bytes32_eq, parseFrame, ackFields]

/-- R411: `parse` of the bytes `encode` returns. -/
theorem parseFrame_frameBytes (t o : Byte) (p : List Byte) :
    parseFrame (frameBytes t o p) =
      some ⟨startMarker, addressTx, t, lenField p.length, o, p, sum16 (frameBody t o p)⟩ := by
  simp [frameBytes, frameBody, bytes32_eq, parseFrame]

/-- Every way the command decoder answers an instruction. -/
theorem decodeCommand_ok {a : U32} {l : U16} {o : Byte} {tail rest : List Byte} {i : Instr}
    (h : decodeCommand a l o tail = .ok (i, rest)) :
    i.isReply = false ∧ a = addressTx ∧ i.command = o ∧
    ((∃ p0 p1 p2 p3 x y, i = .verifyPassword p0 p1 p2 p3 ∧ o = opVerifyPassword ∧ l = lenField 4 ∧
        tail = p0 :: p1 :: p2 :: p3 :: x :: y :: rest) ∨
     (∃ x y, i = .checkFirmware ∧ o = opCheckFirmware ∧ l = lenField 0 ∧ tail = x :: y :: rest) ∨
     (∃ p0 p1 p2 p3 x y, i = .configLed p0 p1 p2 p3 ∧ o = opConfigLed ∧ l = lenField 4 ∧
        tail = p0 :: p1 :: p2 :: p3 :: x :: y :: rest)) := by
  unfold decodeCommand at h
  repeat' split at h
  all_goals try cases h
  all_goals simp_all [Instr.isReply, Instr.command]

/-- Every way the reply decoder answers an instruction. -/
theorem decodeReply_ok {x : Byte} {a : U32} {l : U16} {c : Byte} {tail rest : List Byte} {i : Instr}
    (h : decodeReply x a l c tail = .ok (i, rest)) :
    i.isReply = true ∧ i.command = x ∧ i.wellFormed = true ∧
    ((∃ k1 k0, i = .ackVerifyPassword a c (be16 k1 k0) ∧ l = lenField 0 ∧ tail = k1 :: k0 :: rest) ∨
     (∃ p k1 k0, i = .ackCheckFirmware a c p (be16 k1 k0) ∧ p.length = 32 ∧ l = lenField 32 ∧
        tail = p ++ k1 :: k0 :: rest) ∨
     (∃ k1 k0, i = .ackConfigLed a c (be16 k1 k0) ∧ l = lenField 0 ∧ tail = k1 :: k0 :: rest)) := by
  unfold decodeReply at h
  split at h
  · repeat' split at h
    all_goals try cases h
    simp_all [Instr.isReply, Instr.command, Instr.wellFormed]
  · split at h
    · split at h
      · cases h
      · split at h
        · rename_i k1 k0 r hd
          cases h
          have hl : (List.take 32 tail).length = 32 := by
            have := congrArg List.length hd
            simp at this
            simp
            omega
          refine ⟨rfl, by simp_all [Instr.command], by simpa [Instr.wellFormed] using hl,
            .inr (.inl ⟨_, _, _, rfl, hl, by simp_all, ?_⟩)⟩
          rw [← hd, List.take_append_drop]
        · cases h
    · repeat' split at h
      all_goals try cases h
      simp_all [Instr.isReply, Instr.command, Instr.wellFormed]

/-- A frame that decodes has the start marker and one of the two packet types. -/
theorem decodeFrame_ok {x : Byte} {bytes rest : List Byte} {i : Instr} (h : decodeFrame x bytes = .ok (i, rest)) :
    ∃ b0 b1 b2 b3 b4 b5 b6 b7 b8 b9 tail,
      bytes = b0 :: b1 :: b2 :: b3 :: b4 :: b5 :: b6 :: b7 :: b8 :: b9 :: tail ∧ be16 b0 b1 = startMarker ∧
      ((b6 = ptCmd ∧ decodeCommand (be32 b2 b3 b4 b5) (be16 b7 b8) b9 tail = .ok (i, rest)) ∨
       (b6 = ptAck ∧ decodeReply x (be32 b2 b3 b4 b5) (be16 b7 b8) b9 tail = .ok (i, rest))) := by
  unfold decodeFrame at h
  split at h
  · repeat' split at h
    all_goals simp_all
  · cases h

end Sys2Proof
end

