-- ==== Sys2Proof/Laws/Memory.lean ====
section
/-! SUPPORT. The receive buffer: read after write, and the canonical form every operation keeps. -/

namespace Sys2Proof.Machine

@[simp] theorem Memory.read_empty (a : Nat) : Memory.read [] a = none := rfl

/-- A read of the byte just written gives it. -/
@[simp] theorem Memory.read_write_same (m : Memory) (a : Nat) (b : Byte) :
    Memory.read (Memory.write m a b) a = some b := by
  induction m with
  | nil => simp [Memory.write, Memory.read]
  | cons c rest ih =>
    obtain ⟨k, v⟩ := c
    unfold Memory.write
    split
    · simp [Memory.read]
    · split
      · simp [Memory.read]
      · rename_i h1 h2
        have hk : k ≠ a := fun h => h2 h.symm
        simp [Memory.read, hk, ih]

/-- A write leaves every other offset alone. -/
theorem Memory.read_write_other (m : Memory) {a c : Nat} (b : Byte) (h : c ≠ a) :
    Memory.read (Memory.write m a b) c = Memory.read m c := by
  induction m with
  | nil => simp [Memory.write, Memory.read, h.symm]
  | cons e rest ih =>
    obtain ⟨k, v⟩ := e
    unfold Memory.write
    split
    · simp [Memory.read, h.symm]
    · split
      · rename_i h2
        subst h2
        simp [Memory.read, h.symm]
      · simp [Memory.read, ih]

/-- A bound on the offsets that held before a write at a larger offset holds after it. -/
theorem Memory.risingFrom_write (m : Memory) (lo a : Nat) (b : Byte) (hlo : lo ≤ a)
    (h : Memory.risingFrom lo m = true) : Memory.risingFrom lo (Memory.write m a b) = true := by
  induction m generalizing lo with
  | nil => simpa [Memory.write, Memory.risingFrom] using hlo
  | cons e rest ih =>
    obtain ⟨k, v⟩ := e
    simp only [Memory.risingFrom, Bool.and_eq_true, decide_eq_true_eq] at h
    unfold Memory.write
    split
    · rename_i h1
      simp only [Memory.risingFrom, Bool.and_eq_true, decide_eq_true_eq]
      exact ⟨hlo, by omega, h.2⟩
    · split
      · rename_i h1 h2
        subst h2
        simp only [Memory.risingFrom, Bool.and_eq_true, decide_eq_true_eq]
        exact ⟨hlo, h.2⟩
      · rename_i h1 h2
        simp only [Memory.risingFrom, Bool.and_eq_true, decide_eq_true_eq]
        exact ⟨h.1, ih (k + 1) (by omega) h.2⟩

/-- Every write keeps the canonical form. -/
theorem Memory.wf_write (m : Memory) (a : Nat) (b : Byte) (h : Memory.wf m = true) :
    Memory.wf (Memory.write m a b) = true :=
  Memory.risingFrom_write m 0 a b (Nat.zero_le a) h

/-- The buffer after reset, empty, is in canonical form. -/
@[simp] theorem Memory.wf_empty : Memory.wf [] = true := rfl

@[simp] theorem rxReadBytes_zero (s : State) (a : Nat) : rxReadBytes s a 0 = some [] := rfl

/-- A read of `k + 1` bytes is a read of one byte and of the `k` after it. -/
theorem rxReadBytes_succ {s : State} {a k : Nat} {bs : List Byte} :
    rxReadBytes s a (k + 1) = some bs ↔
      ∃ b rest, rxRead s a = some b ∧ rxReadBytes s (a + 1) k = some rest ∧ bs = b :: rest := by
  simp only [rxReadBytes]
  cases h1 : rxRead s a with
  | none => simp
  | some b =>
    cases h2 : rxReadBytes s (a + 1) k with
    | none => simp
    | some rest => simp [eq_comm]

/-- A read of `k` bytes gives `k` bytes. -/
theorem rxReadBytes_length {s : State} {k : Nat} {bs : List Byte} :
    ∀ {a : Nat}, rxReadBytes s a k = some bs → bs.length = k := by
  induction k generalizing bs with
  | zero => intro a h; simp at h; simp [h]
  | succ k ih =>
    intro a h
    obtain ⟨b, rest, -, h2, rfl⟩ := rxReadBytes_succ.mp h
    simp [ih h2]

/-- The `i`-th byte of a read is the buffer's byte at that offset. -/
theorem rxReadBytes_get {s : State} {k : Nat} {bs : List Byte} :
    ∀ {a i : Nat}, rxReadBytes s a k = some bs → i < k → rxRead s (a + i) = bs[i]? := by
  induction k generalizing bs with
  | zero => intro a i _ hi; omega
  | succ k ih =>
    intro a i h hi
    obtain ⟨b, rest, h1, h2, rfl⟩ := rxReadBytes_succ.mp h
    cases i with
    | zero => simpa using h1
    | succ i =>
      have := ih h2 (Nat.lt_of_succ_lt_succ hi)
      rw [show a + (i + 1) = a + 1 + i by omega, this]
      simp

/-- Two states that agree on every byte read give the same bytes. -/
theorem rxReadBytes_congr {s t : State} {k : Nat} :
    ∀ {a : Nat}, (∀ i, a ≤ i → i < a + k → rxRead s i = rxRead t i) → rxReadBytes s a k = rxReadBytes t a k := by
  induction k with
  | zero => intro a _; rfl
  | succ k ih =>
    intro a h
    have h0 := h a (Nat.le_refl a) (by omega)
    have h1 := ih (a := a + 1) (fun i hi hj => h i (by omega) (by omega))
    simp only [rxReadBytes, h0, h1]

/-- A read that ends one byte further appends that byte. -/
theorem rxReadBytes_snoc {s : State} {k : Nat} {bs : List Byte} {b : Byte} :
    ∀ {a : Nat}, rxReadBytes s a k = some bs → rxRead s (a + k) = some b →
      rxReadBytes s a (k + 1) = some (bs ++ [b]) := by
  induction k generalizing bs with
  | zero =>
    intro a h hb
    simp at h
    simp at hb
    subst h
    exact rxReadBytes_succ.mpr ⟨b, [], hb, rfl, rfl⟩
  | succ k ih =>
    intro a h hb
    obtain ⟨b0, rest, h1, h2, rfl⟩ := rxReadBytes_succ.mp h
    have := ih (a := a + 1) h2 (by rw [show a + 1 + k = a + (k + 1) by omega]; exact hb)
    exact rxReadBytes_succ.mpr ⟨b0, rest ++ [b], h1, this, rfl⟩

/-- The byte a poll stores reads back at the offset it was stored at (R506). -/
theorem rxRead_storeByte_same (b : Byte) (q : List Byte) (s : State) :
    rxRead (storeByte b q s) s.rxCnt = some b := by
  simp [rxRead, storeByte]

/-- A poll leaves the bytes taken before it alone (R506). -/
theorem rxRead_storeByte_before (b : Byte) (q : List Byte) (s : State) {i : Nat} (h : i < s.rxCnt) :
    rxRead (storeByte b q s) i = rxRead s i := by
  have hne : i ≠ s.rxCnt := Nat.ne_of_lt h
  simp [rxRead, storeByte, h, Nat.lt_succ_of_lt h, Memory.read_write_other _ b hne]

/-- After a poll the buffer holds the bytes before it and the new one. -/
theorem rxReadBytes_storeByte (b : Byte) (q : List Byte) (s : State) {bs : List Byte}
    (h : rxReadBytes s 0 s.rxCnt = some bs) :
    rxReadBytes (storeByte b q s) 0 (s.rxCnt + 1) = some (bs ++ [b]) := by
  have h1 : rxReadBytes (storeByte b q s) 0 s.rxCnt = some bs := by
    rw [← h]
    exact rxReadBytes_congr fun i _ hi => rxRead_storeByte_before b q s (by omega)
  exact rxReadBytes_snoc h1 (by simpa using rxRead_storeByte_same b q s)

end Sys2Proof.Machine
end

