-- ==== Sys2Proof/Laws/State.lean ====
section
/-! SUPPORT. One lemma per field per named update of State, each true by rfl. -/

namespace Sys2Proof.Machine

@[simp] theorem resetEngine_cfg (s : State) : (resetEngine s).cfg = s.cfg := rfl
@[simp] theorem resetEngine_st (s : State) : (resetEngine s).st = .idle := rfl
@[simp] theorem resetEngine_latched (s : State) : (resetEngine s).latched = false := rfl
@[simp] theorem resetEngine_op (s : State) : (resetEngine s).op = 0 := rfl
@[simp] theorem resetEngine_n (s : State) : (resetEngine s).n = 0 := rfl
@[simp] theorem resetEngine_par (s : State) : (resetEngine s).par = List.replicate s.cfg.pMax 0 := rfl
@[simp] theorem resetEngine_expLen (s : State) : (resetEngine s).expLen = 0 := rfl
@[simp] theorem resetEngine_deadline (s : State) : (resetEngine s).deadline = 0 := rfl
@[simp] theorem resetEngine_txIdx (s : State) : (resetEngine s).txIdx = 0 := rfl
@[simp] theorem resetEngine_txSum (s : State) : (resetEngine s).txSum = 0 := rfl
@[simp] theorem resetEngine_rxCnt (s : State) : (resetEngine s).rxCnt = 0 := rfl
@[simp] theorem resetEngine_rxSum (s : State) : (resetEngine s).rxSum = 0 := rfl
@[simp] theorem resetEngine_rxBuf (s : State) : (resetEngine s).rxBuf = [] := rfl
@[simp] theorem resetEngine_outcome (s : State) : (resetEngine s).outcome = .none := rfl
@[simp] theorem resetEngine_detail (s : State) : (resetEngine s).detail = 0 := rfl
@[simp] theorem resetEngine_payloadLen (s : State) : (resetEngine s).payloadLen = 0 := rfl
@[simp] theorem resetEngine_rxCksField (s : State) : (resetEngine s).rxCksField = 0 := rfl
@[simp] theorem resetEngine_rxCksCalc (s : State) : (resetEngine s).rxCksCalc = 0 := rfl
@[simp] theorem resetEngine_rxAddr (s : State) : (resetEngine s).rxAddr = 0 := rfl
@[simp] theorem resetEngine_chanRx (s : State) : (resetEngine s).chanRx = s.chanRx := rfl
@[simp] theorem resetEngine_chanTx (s : State) : (resetEngine s).chanTx = s.chanTx := rfl
@[simp] theorem resetEngine_now (s : State) : (resetEngine s).now = s.now := rfl
@[simp] theorem resetEngine_pins (s : State) : (resetEngine s).pins = s.pins := rfl
@[simp] theorem resetEngine_inputs (s : State) : (resetEngine s).inputs = s.inputs := rfl

@[simp] theorem raiseOutcome_cfg (code : OutcomeName) (d : Byte) (s : State) : (raiseOutcome code d s).cfg = s.cfg := rfl
@[simp] theorem raiseOutcome_st (code : OutcomeName) (d : Byte) (s : State) : (raiseOutcome code d s).st = .done := rfl
@[simp] theorem raiseOutcome_latched (code : OutcomeName) (d : Byte) (s : State) : (raiseOutcome code d s).latched = s.latched := rfl
@[simp] theorem raiseOutcome_op (code : OutcomeName) (d : Byte) (s : State) : (raiseOutcome code d s).op = s.op := rfl
@[simp] theorem raiseOutcome_n (code : OutcomeName) (d : Byte) (s : State) : (raiseOutcome code d s).n = s.n := rfl
@[simp] theorem raiseOutcome_par (code : OutcomeName) (d : Byte) (s : State) : (raiseOutcome code d s).par = s.par := rfl
@[simp] theorem raiseOutcome_expLen (code : OutcomeName) (d : Byte) (s : State) : (raiseOutcome code d s).expLen = s.expLen := rfl
@[simp] theorem raiseOutcome_deadline (code : OutcomeName) (d : Byte) (s : State) : (raiseOutcome code d s).deadline = s.deadline := rfl
@[simp] theorem raiseOutcome_txIdx (code : OutcomeName) (d : Byte) (s : State) : (raiseOutcome code d s).txIdx = s.txIdx := rfl
@[simp] theorem raiseOutcome_txSum (code : OutcomeName) (d : Byte) (s : State) : (raiseOutcome code d s).txSum = s.txSum := rfl
@[simp] theorem raiseOutcome_rxCnt (code : OutcomeName) (d : Byte) (s : State) : (raiseOutcome code d s).rxCnt = s.rxCnt := rfl
@[simp] theorem raiseOutcome_rxSum (code : OutcomeName) (d : Byte) (s : State) : (raiseOutcome code d s).rxSum = s.rxSum := rfl
@[simp] theorem raiseOutcome_rxBuf (code : OutcomeName) (d : Byte) (s : State) : (raiseOutcome code d s).rxBuf = s.rxBuf := rfl
@[simp] theorem raiseOutcome_outcome (code : OutcomeName) (d : Byte) (s : State) : (raiseOutcome code d s).outcome = code := rfl
@[simp] theorem raiseOutcome_detail (code : OutcomeName) (d : Byte) (s : State) : (raiseOutcome code d s).detail = d := rfl
@[simp] theorem raiseOutcome_payloadLen (code : OutcomeName) (d : Byte) (s : State) : (raiseOutcome code d s).payloadLen = s.payloadLen := rfl
@[simp] theorem raiseOutcome_rxCksField (code : OutcomeName) (d : Byte) (s : State) : (raiseOutcome code d s).rxCksField = s.rxCksField := rfl
@[simp] theorem raiseOutcome_rxCksCalc (code : OutcomeName) (d : Byte) (s : State) : (raiseOutcome code d s).rxCksCalc = s.rxCksCalc := rfl
@[simp] theorem raiseOutcome_rxAddr (code : OutcomeName) (d : Byte) (s : State) : (raiseOutcome code d s).rxAddr = s.rxAddr := rfl
@[simp] theorem raiseOutcome_chanRx (code : OutcomeName) (d : Byte) (s : State) : (raiseOutcome code d s).chanRx = s.chanRx := rfl
@[simp] theorem raiseOutcome_chanTx (code : OutcomeName) (d : Byte) (s : State) : (raiseOutcome code d s).chanTx = s.chanTx := rfl
@[simp] theorem raiseOutcome_now (code : OutcomeName) (d : Byte) (s : State) : (raiseOutcome code d s).now = s.now := rfl
@[simp] theorem raiseOutcome_pins (code : OutcomeName) (d : Byte) (s : State) : (raiseOutcome code d s).pins = s.pins := rfl
@[simp] theorem raiseOutcome_inputs (code : OutcomeName) (d : Byte) (s : State) : (raiseOutcome code d s).inputs = s.inputs := rfl

@[simp] theorem clearResults_cfg (s : State) : (clearResults s).cfg = s.cfg := rfl
@[simp] theorem clearResults_st (s : State) : (clearResults s).st = s.st := rfl
@[simp] theorem clearResults_latched (s : State) : (clearResults s).latched = s.latched := rfl
@[simp] theorem clearResults_op (s : State) : (clearResults s).op = s.op := rfl
@[simp] theorem clearResults_n (s : State) : (clearResults s).n = s.n := rfl
@[simp] theorem clearResults_par (s : State) : (clearResults s).par = s.par := rfl
@[simp] theorem clearResults_expLen (s : State) : (clearResults s).expLen = s.expLen := rfl
@[simp] theorem clearResults_deadline (s : State) : (clearResults s).deadline = s.deadline := rfl
@[simp] theorem clearResults_txIdx (s : State) : (clearResults s).txIdx = s.txIdx := rfl
@[simp] theorem clearResults_txSum (s : State) : (clearResults s).txSum = s.txSum := rfl
@[simp] theorem clearResults_rxCnt (s : State) : (clearResults s).rxCnt = s.rxCnt := rfl
@[simp] theorem clearResults_rxSum (s : State) : (clearResults s).rxSum = s.rxSum := rfl
@[simp] theorem clearResults_rxBuf (s : State) : (clearResults s).rxBuf = s.rxBuf := rfl
@[simp] theorem clearResults_outcome (s : State) : (clearResults s).outcome = .none := rfl
@[simp] theorem clearResults_detail (s : State) : (clearResults s).detail = 0 := rfl
@[simp] theorem clearResults_payloadLen (s : State) : (clearResults s).payloadLen = 0 := rfl
@[simp] theorem clearResults_rxCksField (s : State) : (clearResults s).rxCksField = 0 := rfl
@[simp] theorem clearResults_rxCksCalc (s : State) : (clearResults s).rxCksCalc = 0 := rfl
@[simp] theorem clearResults_rxAddr (s : State) : (clearResults s).rxAddr = 0 := rfl
@[simp] theorem clearResults_chanRx (s : State) : (clearResults s).chanRx = s.chanRx := rfl
@[simp] theorem clearResults_chanTx (s : State) : (clearResults s).chanTx = s.chanTx := rfl
@[simp] theorem clearResults_now (s : State) : (clearResults s).now = s.now := rfl
@[simp] theorem clearResults_pins (s : State) : (clearResults s).pins = s.pins := rfl
@[simp] theorem clearResults_inputs (s : State) : (clearResults s).inputs = s.inputs := rfl

@[simp] theorem latchRequest_cfg (o : Byte) (e : CatalogEntry) (ps : List Byte) (s : State) : (latchRequest o e ps s).cfg = s.cfg := rfl
@[simp] theorem latchRequest_st (o : Byte) (e : CatalogEntry) (ps : List Byte) (s : State) : (latchRequest o e ps s).st = .sending := rfl
@[simp] theorem latchRequest_latched (o : Byte) (e : CatalogEntry) (ps : List Byte) (s : State) : (latchRequest o e ps s).latched = true := rfl
@[simp] theorem latchRequest_op (o : Byte) (e : CatalogEntry) (ps : List Byte) (s : State) : (latchRequest o e ps s).op = o := rfl
@[simp] theorem latchRequest_n (o : Byte) (e : CatalogEntry) (ps : List Byte) (s : State) : (latchRequest o e ps s).n = e.n := rfl
@[simp] theorem latchRequest_par (o : Byte) (e : CatalogEntry) (ps : List Byte) (s : State) : (latchRequest o e ps s).par = ps.take e.n ++ s.par.drop e.n := rfl
@[simp] theorem latchRequest_expLen (o : Byte) (e : CatalogEntry) (ps : List Byte) (s : State) : (latchRequest o e ps s).expLen = e.expLen := rfl
@[simp] theorem latchRequest_deadline (o : Byte) (e : CatalogEntry) (ps : List Byte) (s : State) : (latchRequest o e ps s).deadline = s.pins.reqDeadline := rfl
@[simp] theorem latchRequest_txIdx (o : Byte) (e : CatalogEntry) (ps : List Byte) (s : State) : (latchRequest o e ps s).txIdx = 0 := rfl
@[simp] theorem latchRequest_txSum (o : Byte) (e : CatalogEntry) (ps : List Byte) (s : State) : (latchRequest o e ps s).txSum = 0 := rfl
@[simp] theorem latchRequest_rxCnt (o : Byte) (e : CatalogEntry) (ps : List Byte) (s : State) : (latchRequest o e ps s).rxCnt = 0 := rfl
@[simp] theorem latchRequest_rxSum (o : Byte) (e : CatalogEntry) (ps : List Byte) (s : State) : (latchRequest o e ps s).rxSum = 0 := rfl
@[simp] theorem latchRequest_rxBuf (o : Byte) (e : CatalogEntry) (ps : List Byte) (s : State) : (latchRequest o e ps s).rxBuf = s.rxBuf := rfl
@[simp] theorem latchRequest_outcome (o : Byte) (e : CatalogEntry) (ps : List Byte) (s : State) : (latchRequest o e ps s).outcome = s.outcome := rfl
@[simp] theorem latchRequest_detail (o : Byte) (e : CatalogEntry) (ps : List Byte) (s : State) : (latchRequest o e ps s).detail = s.detail := rfl
@[simp] theorem latchRequest_payloadLen (o : Byte) (e : CatalogEntry) (ps : List Byte) (s : State) : (latchRequest o e ps s).payloadLen = s.payloadLen := rfl
@[simp] theorem latchRequest_rxCksField (o : Byte) (e : CatalogEntry) (ps : List Byte) (s : State) : (latchRequest o e ps s).rxCksField = s.rxCksField := rfl
@[simp] theorem latchRequest_rxCksCalc (o : Byte) (e : CatalogEntry) (ps : List Byte) (s : State) : (latchRequest o e ps s).rxCksCalc = s.rxCksCalc := rfl
@[simp] theorem latchRequest_rxAddr (o : Byte) (e : CatalogEntry) (ps : List Byte) (s : State) : (latchRequest o e ps s).rxAddr = s.rxAddr := rfl
@[simp] theorem latchRequest_chanRx (o : Byte) (e : CatalogEntry) (ps : List Byte) (s : State) : (latchRequest o e ps s).chanRx = s.chanRx := rfl
@[simp] theorem latchRequest_chanTx (o : Byte) (e : CatalogEntry) (ps : List Byte) (s : State) : (latchRequest o e ps s).chanTx = s.chanTx := rfl
@[simp] theorem latchRequest_now (o : Byte) (e : CatalogEntry) (ps : List Byte) (s : State) : (latchRequest o e ps s).now = s.now := rfl
@[simp] theorem latchRequest_pins (o : Byte) (e : CatalogEntry) (ps : List Byte) (s : State) : (latchRequest o e ps s).pins = s.pins := rfl
@[simp] theorem latchRequest_inputs (o : Byte) (e : CatalogEntry) (ps : List Byte) (s : State) : (latchRequest o e ps s).inputs = s.inputs := rfl

@[simp] theorem acceptByte_cfg (b : Byte) (s : State) : (acceptByte b s).cfg = s.cfg := rfl
@[simp] theorem acceptByte_st (b : Byte) (s : State) : (acceptByte b s).st = if s.txIdx + 1 = 12 + s.n then .awaiting else s.st := rfl
@[simp] theorem acceptByte_latched (b : Byte) (s : State) : (acceptByte b s).latched = s.latched := rfl
@[simp] theorem acceptByte_op (b : Byte) (s : State) : (acceptByte b s).op = s.op := rfl
@[simp] theorem acceptByte_n (b : Byte) (s : State) : (acceptByte b s).n = s.n := rfl
@[simp] theorem acceptByte_par (b : Byte) (s : State) : (acceptByte b s).par = s.par := rfl
@[simp] theorem acceptByte_expLen (b : Byte) (s : State) : (acceptByte b s).expLen = s.expLen := rfl
@[simp] theorem acceptByte_deadline (b : Byte) (s : State) : (acceptByte b s).deadline = s.deadline := rfl
@[simp] theorem acceptByte_txIdx (b : Byte) (s : State) : (acceptByte b s).txIdx = s.txIdx + 1 := rfl
@[simp] theorem acceptByte_txSum (b : Byte) (s : State) : (acceptByte b s).txSum = if 6 ≤ s.txIdx ∧ s.txIdx ≤ 9 + s.n then addSum s.txSum b else s.txSum := rfl
@[simp] theorem acceptByte_rxCnt (b : Byte) (s : State) : (acceptByte b s).rxCnt = s.rxCnt := rfl
@[simp] theorem acceptByte_rxSum (b : Byte) (s : State) : (acceptByte b s).rxSum = s.rxSum := rfl
@[simp] theorem acceptByte_rxBuf (b : Byte) (s : State) : (acceptByte b s).rxBuf = s.rxBuf := rfl
@[simp] theorem acceptByte_outcome (b : Byte) (s : State) : (acceptByte b s).outcome = s.outcome := rfl
@[simp] theorem acceptByte_detail (b : Byte) (s : State) : (acceptByte b s).detail = s.detail := rfl
@[simp] theorem acceptByte_payloadLen (b : Byte) (s : State) : (acceptByte b s).payloadLen = s.payloadLen := rfl
@[simp] theorem acceptByte_rxCksField (b : Byte) (s : State) : (acceptByte b s).rxCksField = s.rxCksField := rfl
@[simp] theorem acceptByte_rxCksCalc (b : Byte) (s : State) : (acceptByte b s).rxCksCalc = s.rxCksCalc := rfl
@[simp] theorem acceptByte_rxAddr (b : Byte) (s : State) : (acceptByte b s).rxAddr = s.rxAddr := rfl
@[simp] theorem acceptByte_chanRx (b : Byte) (s : State) : (acceptByte b s).chanRx = s.chanRx := rfl
@[simp] theorem acceptByte_chanTx (b : Byte) (s : State) : (acceptByte b s).chanTx = s.chanTx ++ [b] := rfl
@[simp] theorem acceptByte_now (b : Byte) (s : State) : (acceptByte b s).now = s.now := rfl
@[simp] theorem acceptByte_pins (b : Byte) (s : State) : (acceptByte b s).pins = s.pins := rfl
@[simp] theorem acceptByte_inputs (b : Byte) (s : State) : (acceptByte b s).inputs = s.inputs := rfl

@[simp] theorem storeByte_cfg (b : Byte) (q : List Byte) (s : State) : (storeByte b q s).cfg = s.cfg := rfl
@[simp] theorem storeByte_st (b : Byte) (q : List Byte) (s : State) : (storeByte b q s).st = s.st := rfl
@[simp] theorem storeByte_latched (b : Byte) (q : List Byte) (s : State) : (storeByte b q s).latched = s.latched := rfl
@[simp] theorem storeByte_op (b : Byte) (q : List Byte) (s : State) : (storeByte b q s).op = s.op := rfl
@[simp] theorem storeByte_n (b : Byte) (q : List Byte) (s : State) : (storeByte b q s).n = s.n := rfl
@[simp] theorem storeByte_par (b : Byte) (q : List Byte) (s : State) : (storeByte b q s).par = s.par := rfl
@[simp] theorem storeByte_expLen (b : Byte) (q : List Byte) (s : State) : (storeByte b q s).expLen = s.expLen := rfl
@[simp] theorem storeByte_deadline (b : Byte) (q : List Byte) (s : State) : (storeByte b q s).deadline = s.deadline := rfl
@[simp] theorem storeByte_txIdx (b : Byte) (q : List Byte) (s : State) : (storeByte b q s).txIdx = s.txIdx := rfl
@[simp] theorem storeByte_txSum (b : Byte) (q : List Byte) (s : State) : (storeByte b q s).txSum = s.txSum := rfl
@[simp] theorem storeByte_rxCnt (b : Byte) (q : List Byte) (s : State) : (storeByte b q s).rxCnt = s.rxCnt + 1 := rfl
@[simp] theorem storeByte_rxSum (b : Byte) (q : List Byte) (s : State) : (storeByte b q s).rxSum = if 6 ≤ s.rxCnt ∧ s.rxCnt ≤ s.expLen - 3 then addSum s.rxSum b else s.rxSum := rfl
@[simp] theorem storeByte_rxBuf (b : Byte) (q : List Byte) (s : State) : (storeByte b q s).rxBuf = Memory.write s.rxBuf s.rxCnt b := rfl
@[simp] theorem storeByte_outcome (b : Byte) (q : List Byte) (s : State) : (storeByte b q s).outcome = s.outcome := rfl
@[simp] theorem storeByte_detail (b : Byte) (q : List Byte) (s : State) : (storeByte b q s).detail = s.detail := rfl
@[simp] theorem storeByte_payloadLen (b : Byte) (q : List Byte) (s : State) : (storeByte b q s).payloadLen = s.payloadLen := rfl
@[simp] theorem storeByte_rxCksField (b : Byte) (q : List Byte) (s : State) : (storeByte b q s).rxCksField = s.rxCksField := rfl
@[simp] theorem storeByte_rxCksCalc (b : Byte) (q : List Byte) (s : State) : (storeByte b q s).rxCksCalc = s.rxCksCalc := rfl
@[simp] theorem storeByte_rxAddr (b : Byte) (q : List Byte) (s : State) : (storeByte b q s).rxAddr = s.rxAddr := rfl
@[simp] theorem storeByte_chanRx (b : Byte) (q : List Byte) (s : State) : (storeByte b q s).chanRx = q := rfl
@[simp] theorem storeByte_chanTx (b : Byte) (q : List Byte) (s : State) : (storeByte b q s).chanTx = s.chanTx := rfl
@[simp] theorem storeByte_now (b : Byte) (q : List Byte) (s : State) : (storeByte b q s).now = s.now := rfl
@[simp] theorem storeByte_pins (b : Byte) (q : List Byte) (s : State) : (storeByte b q s).pins = s.pins := rfl
@[simp] theorem storeByte_inputs (b : Byte) (q : List Byte) (s : State) : (storeByte b q s).inputs = s.inputs := rfl

@[simp] theorem exposeReply_cfg (ck : U16) (a : U32) (s : State) : (exposeReply ck a s).cfg = s.cfg := rfl
@[simp] theorem exposeReply_st (ck : U16) (a : U32) (s : State) : (exposeReply ck a s).st = s.st := rfl
@[simp] theorem exposeReply_latched (ck : U16) (a : U32) (s : State) : (exposeReply ck a s).latched = s.latched := rfl
@[simp] theorem exposeReply_op (ck : U16) (a : U32) (s : State) : (exposeReply ck a s).op = s.op := rfl
@[simp] theorem exposeReply_n (ck : U16) (a : U32) (s : State) : (exposeReply ck a s).n = s.n := rfl
@[simp] theorem exposeReply_par (ck : U16) (a : U32) (s : State) : (exposeReply ck a s).par = s.par := rfl
@[simp] theorem exposeReply_expLen (ck : U16) (a : U32) (s : State) : (exposeReply ck a s).expLen = s.expLen := rfl
@[simp] theorem exposeReply_deadline (ck : U16) (a : U32) (s : State) : (exposeReply ck a s).deadline = s.deadline := rfl
@[simp] theorem exposeReply_txIdx (ck : U16) (a : U32) (s : State) : (exposeReply ck a s).txIdx = s.txIdx := rfl
@[simp] theorem exposeReply_txSum (ck : U16) (a : U32) (s : State) : (exposeReply ck a s).txSum = s.txSum := rfl
@[simp] theorem exposeReply_rxCnt (ck : U16) (a : U32) (s : State) : (exposeReply ck a s).rxCnt = s.rxCnt := rfl
@[simp] theorem exposeReply_rxSum (ck : U16) (a : U32) (s : State) : (exposeReply ck a s).rxSum = s.rxSum := rfl
@[simp] theorem exposeReply_rxBuf (ck : U16) (a : U32) (s : State) : (exposeReply ck a s).rxBuf = s.rxBuf := rfl
@[simp] theorem exposeReply_outcome (ck : U16) (a : U32) (s : State) : (exposeReply ck a s).outcome = s.outcome := rfl
@[simp] theorem exposeReply_detail (ck : U16) (a : U32) (s : State) : (exposeReply ck a s).detail = s.detail := rfl
@[simp] theorem exposeReply_payloadLen (ck : U16) (a : U32) (s : State) : (exposeReply ck a s).payloadLen = s.payloadLen := rfl
@[simp] theorem exposeReply_rxCksField (ck : U16) (a : U32) (s : State) : (exposeReply ck a s).rxCksField = ck := rfl
@[simp] theorem exposeReply_rxCksCalc (ck : U16) (a : U32) (s : State) : (exposeReply ck a s).rxCksCalc = s.rxSum := rfl
@[simp] theorem exposeReply_rxAddr (ck : U16) (a : U32) (s : State) : (exposeReply ck a s).rxAddr = a := rfl
@[simp] theorem exposeReply_chanRx (ck : U16) (a : U32) (s : State) : (exposeReply ck a s).chanRx = s.chanRx := rfl
@[simp] theorem exposeReply_chanTx (ck : U16) (a : U32) (s : State) : (exposeReply ck a s).chanTx = s.chanTx := rfl
@[simp] theorem exposeReply_now (ck : U16) (a : U32) (s : State) : (exposeReply ck a s).now = s.now := rfl
@[simp] theorem exposeReply_pins (ck : U16) (a : U32) (s : State) : (exposeReply ck a s).pins = s.pins := rfl
@[simp] theorem exposeReply_inputs (ck : U16) (a : U32) (s : State) : (exposeReply ck a s).inputs = s.inputs := rfl

@[simp] theorem setPayloadLen_cfg (k : Nat) (s : State) : (setPayloadLen k s).cfg = s.cfg := rfl
@[simp] theorem setPayloadLen_st (k : Nat) (s : State) : (setPayloadLen k s).st = s.st := rfl
@[simp] theorem setPayloadLen_latched (k : Nat) (s : State) : (setPayloadLen k s).latched = s.latched := rfl
@[simp] theorem setPayloadLen_op (k : Nat) (s : State) : (setPayloadLen k s).op = s.op := rfl
@[simp] theorem setPayloadLen_n (k : Nat) (s : State) : (setPayloadLen k s).n = s.n := rfl
@[simp] theorem setPayloadLen_par (k : Nat) (s : State) : (setPayloadLen k s).par = s.par := rfl
@[simp] theorem setPayloadLen_expLen (k : Nat) (s : State) : (setPayloadLen k s).expLen = s.expLen := rfl
@[simp] theorem setPayloadLen_deadline (k : Nat) (s : State) : (setPayloadLen k s).deadline = s.deadline := rfl
@[simp] theorem setPayloadLen_txIdx (k : Nat) (s : State) : (setPayloadLen k s).txIdx = s.txIdx := rfl
@[simp] theorem setPayloadLen_txSum (k : Nat) (s : State) : (setPayloadLen k s).txSum = s.txSum := rfl
@[simp] theorem setPayloadLen_rxCnt (k : Nat) (s : State) : (setPayloadLen k s).rxCnt = s.rxCnt := rfl
@[simp] theorem setPayloadLen_rxSum (k : Nat) (s : State) : (setPayloadLen k s).rxSum = s.rxSum := rfl
@[simp] theorem setPayloadLen_rxBuf (k : Nat) (s : State) : (setPayloadLen k s).rxBuf = s.rxBuf := rfl
@[simp] theorem setPayloadLen_outcome (k : Nat) (s : State) : (setPayloadLen k s).outcome = s.outcome := rfl
@[simp] theorem setPayloadLen_detail (k : Nat) (s : State) : (setPayloadLen k s).detail = s.detail := rfl
@[simp] theorem setPayloadLen_payloadLen (k : Nat) (s : State) : (setPayloadLen k s).payloadLen = k := rfl
@[simp] theorem setPayloadLen_rxCksField (k : Nat) (s : State) : (setPayloadLen k s).rxCksField = s.rxCksField := rfl
@[simp] theorem setPayloadLen_rxCksCalc (k : Nat) (s : State) : (setPayloadLen k s).rxCksCalc = s.rxCksCalc := rfl
@[simp] theorem setPayloadLen_rxAddr (k : Nat) (s : State) : (setPayloadLen k s).rxAddr = s.rxAddr := rfl
@[simp] theorem setPayloadLen_chanRx (k : Nat) (s : State) : (setPayloadLen k s).chanRx = s.chanRx := rfl
@[simp] theorem setPayloadLen_chanTx (k : Nat) (s : State) : (setPayloadLen k s).chanTx = s.chanTx := rfl
@[simp] theorem setPayloadLen_now (k : Nat) (s : State) : (setPayloadLen k s).now = s.now := rfl
@[simp] theorem setPayloadLen_pins (k : Nat) (s : State) : (setPayloadLen k s).pins = s.pins := rfl
@[simp] theorem setPayloadLen_inputs (k : Nat) (s : State) : (setPayloadLen k s).inputs = s.inputs := rfl

@[simp] theorem loadInput_cfg (s : State) : (loadInput s).cfg = s.cfg := by unfold loadInput; cases s.inputs <;> rfl
@[simp] theorem loadInput_st (s : State) : (loadInput s).st = s.st := by unfold loadInput; cases s.inputs <;> rfl
@[simp] theorem loadInput_latched (s : State) : (loadInput s).latched = s.latched := by unfold loadInput; cases s.inputs <;> rfl
@[simp] theorem loadInput_op (s : State) : (loadInput s).op = s.op := by unfold loadInput; cases s.inputs <;> rfl
@[simp] theorem loadInput_n (s : State) : (loadInput s).n = s.n := by unfold loadInput; cases s.inputs <;> rfl
@[simp] theorem loadInput_par (s : State) : (loadInput s).par = s.par := by unfold loadInput; cases s.inputs <;> rfl
@[simp] theorem loadInput_expLen (s : State) : (loadInput s).expLen = s.expLen := by unfold loadInput; cases s.inputs <;> rfl
@[simp] theorem loadInput_deadline (s : State) : (loadInput s).deadline = s.deadline := by unfold loadInput; cases s.inputs <;> rfl
@[simp] theorem loadInput_txIdx (s : State) : (loadInput s).txIdx = s.txIdx := by unfold loadInput; cases s.inputs <;> rfl
@[simp] theorem loadInput_txSum (s : State) : (loadInput s).txSum = s.txSum := by unfold loadInput; cases s.inputs <;> rfl
@[simp] theorem loadInput_rxCnt (s : State) : (loadInput s).rxCnt = s.rxCnt := by unfold loadInput; cases s.inputs <;> rfl
@[simp] theorem loadInput_rxSum (s : State) : (loadInput s).rxSum = s.rxSum := by unfold loadInput; cases s.inputs <;> rfl
@[simp] theorem loadInput_rxBuf (s : State) : (loadInput s).rxBuf = s.rxBuf := by unfold loadInput; cases s.inputs <;> rfl
@[simp] theorem loadInput_outcome (s : State) : (loadInput s).outcome = s.outcome := by unfold loadInput; cases s.inputs <;> rfl
@[simp] theorem loadInput_detail (s : State) : (loadInput s).detail = s.detail := by unfold loadInput; cases s.inputs <;> rfl
@[simp] theorem loadInput_payloadLen (s : State) : (loadInput s).payloadLen = s.payloadLen := by unfold loadInput; cases s.inputs <;> rfl
@[simp] theorem loadInput_rxCksField (s : State) : (loadInput s).rxCksField = s.rxCksField := by unfold loadInput; cases s.inputs <;> rfl
@[simp] theorem loadInput_rxCksCalc (s : State) : (loadInput s).rxCksCalc = s.rxCksCalc := by unfold loadInput; cases s.inputs <;> rfl
@[simp] theorem loadInput_rxAddr (s : State) : (loadInput s).rxAddr = s.rxAddr := by unfold loadInput; cases s.inputs <;> rfl
@[simp] theorem loadInput_chanTx (s : State) : (loadInput s).chanTx = s.chanTx := by unfold loadInput; cases s.inputs <;> rfl

end Sys2Proof.Machine
end

