-- ==== Sys2Proof/Laws/Ops.lean ====
section
/-! SUPPORT. For each shared operation, everything it can do, said once. -/

namespace Sys2Proof.Machine

/-! ## The catalog -/

/-- R116: an entry found is an entry of the table, for the opcode looked up. -/
theorem lookupCatalog_some {c : List CatalogEntry} {o : Byte} {e : CatalogEntry}
    (h : lookupCatalog c o = some e) : e ∈ c ∧ e.opcode = o := by
  induction c with
  | nil => simp [lookupCatalog] at h
  | cons d rest ih =>
    unfold lookupCatalog at h
    split at h
    · rename_i hd
      cases h
      exact ⟨List.mem_cons_self, hd⟩
    · have := ih h
      exact ⟨List.mem_cons_of_mem d this.1, this.2⟩

/-- R454: the bounds a well-formed catalog gives an entry found in it. -/
theorem lookupCatalog_bounds {c : Config} (hw : catalogWellFormed c = true) {o : Byte} {e : CatalogEntry}
    (h : lookupCatalog c.catalog o = some e) : e.n ≤ c.pMax ∧ 12 ≤ e.expLen ∧ e.expLen ≤ c.rMax := by
  have hm := (lookupCatalog_some h).1
  simp only [catalogWellFormed, Bool.and_eq_true, List.all_eq_true, decide_eq_true_eq] at hw
  exact ⟨(hw.1 e hm).1.1, (hw.1 e hm).1.2, (hw.1 e hm).2⟩

/-! ## START -/

/-- R501 to R503: what a START that answers a next state did. -/
theorem startRequest_next {o : Byte} {ps : List Byte} {s t : State} (h : startRequest o ps s = .next t) :
    busy s = false ∧
      ((lookupCatalog s.cfg.catalog o = none ∧ t = refuseRequest (clearResults s)) ∨
        ∃ e, lookupCatalog s.cfg.catalog o = some e ∧ e.n ≤ maxParams ∧ e.n ≤ ps.length ∧
          t = latchRequest o e ps (clearResults s)) := by
  unfold startRequest at h
  cases hb : busy s with
  | true => simp [hb] at h
  | false =>
    refine ⟨rfl, ?_⟩
    rw [hb] at h
    cases hl : lookupCatalog s.cfg.catalog o with
    | none =>
      simp [hl] at h
      exact .inl ⟨rfl, h.symm⟩
    | some e =>
      simp only [hl] at h
      split at h
      · simp at h
      · split at h
        · simp at h
        · split at h
          · simp at h
          · exact .inr ⟨e, rfl, by omega, by omega, (Host.Outcome.next.inj h).symm⟩

/-- R503: an opcode outside the catalog. -/
theorem startRequest_refuses {o : Byte} {ps : List Byte} {s : State} (hb : busy s = false)
    (hl : lookupCatalog s.cfg.catalog o = none) :
    startRequest o ps s = .next (refuseRequest (clearResults s)) := by
  simp [startRequest, hb, hl]

/-- R502: an opcode in the catalog, with enough parameter bytes. -/
theorem startRequest_begins {o : Byte} {ps : List Byte} {s : State} {e : CatalogEntry} (hb : busy s = false)
    (hl : lookupCatalog s.cfg.catalog o = some e) (hn : e.n ≤ maxParams) (hp : e.n ≤ ps.length) :
    startRequest o ps s = .next (latchRequest o e ps (clearResults s)) := by
  have h1 : ¬ maxParams < e.n := by omega
  have h2 : ¬ ps.length < e.n := by omega
  simp [startRequest, hb, hl, h1, h2]

/-- START raises no fault. -/
theorem startRequest_no_fault (o : Byte) (ps : List Byte) (s : State) (r : Fault) :
    startRequest o ps s ≠ .fault r := by
  unfold startRequest
  split
  · simp
  · split
    · simp
    · split
      · simp
      · split <;> simp

/-! ## Decode and interpretation -/

/-- R550: interpreting a reply enters `DONE`. -/
@[simp] theorem interpretReply_st (c : Byte) (s : State) : (interpretReply c s).st = .done := by
  unfold interpretReply; split <;> rfl

/-- R507, R420, R550: the three ways a complete reply can end, and what each writes. -/
theorem finishFields_cases (f : FrameFields) (s : State) :
    (∃ r, firstFailure s.cfg.rxVerifyChecksum s.expLen s.rxSum f = some r ∧
      finishFields f s =
        { s with rxCksField := f.cks, rxCksCalc := s.rxSum, rxAddr := f.addr,
                 outcome := .malformed, detail := r.toByte, st := .done }) ∨
    (firstFailure s.cfg.rxVerifyChecksum s.expLen s.rxSum f = none ∧ f.code = confOk ∧
      finishFields f s =
        { s with rxCksField := f.cks, rxCksCalc := s.rxSum, rxAddr := f.addr,
                 outcome := .ok, detail := f.code, payloadLen := s.expLen - 12, st := .done }) ∨
    (firstFailure s.cfg.rxVerifyChecksum s.expLen s.rxSum f = none ∧ f.code ≠ confOk ∧
      finishFields f s =
        { s with rxCksField := f.cks, rxCksCalc := s.rxSum, rxAddr := f.addr,
                 outcome := .deviceRejected, detail := f.code, payloadLen := 0, st := .done }) := by
  unfold finishFields
  cases hf : firstFailure s.cfg.rxVerifyChecksum s.expLen s.rxSum f with
  | some r => exact .inl ⟨r, rfl, rfl⟩
  | none =>
    by_cases hc : f.code = confOk
    · exact .inr (.inl ⟨rfl, hc, by simp [interpretReply, hc]; rfl⟩)
    · exact .inr (.inr ⟨rfl, hc, by simp [interpretReply, hc]; rfl⟩)

/-- R610: everything `finish` leaves alone. -/
theorem finishFields_frame (f : FrameFields) (s : State) :
    let t := finishFields f s
    t.cfg = s.cfg ∧ t.latched = s.latched ∧ t.op = s.op ∧ t.n = s.n ∧ t.par = s.par ∧ t.expLen = s.expLen ∧
      t.deadline = s.deadline ∧ t.txIdx = s.txIdx ∧ t.txSum = s.txSum ∧ t.rxCnt = s.rxCnt ∧ t.rxSum = s.rxSum ∧
      t.rxBuf = s.rxBuf ∧ t.chanRx = s.chanRx ∧ t.chanTx = s.chanTx ∧ t.now = s.now ∧ t.pins = s.pins ∧
      t.inputs = s.inputs := by
  rcases finishFields_cases f s with ⟨r, -, h⟩ | ⟨-, -, h⟩ | ⟨-, -, h⟩ <;> simp only [h] <;> simp

/-- R610: a complete reply enters `DONE`. -/
@[simp] theorem finishFields_st (f : FrameFields) (s : State) : (finishFields f s).st = .done := by
  rcases finishFields_cases f s with ⟨r, -, h⟩ | ⟨-, -, h⟩ | ⟨-, -, h⟩ <;> rw [h]

/-- R507: what a `finish` that answers a next state read. -/
theorem finish_next {s t : State} (h : finish s = .next t) :
    ∃ bytes f, rxReadBytes s 0 s.expLen = some bytes ∧ parseFrame bytes = some f ∧ t = finishFields f s := by
  unfold finish at h
  split at h
  · simp at h
  · rename_i bytes hb
    split at h
    · simp at h
    · rename_i f hf
      exact ⟨bytes, f, hb, hf, (Host.Outcome.next.inj h).symm⟩

/-- R507 on a buffer that holds a frame. -/
theorem finish_of_bytes {s : State} {bytes : List Byte} {f : FrameFields}
    (hb : rxReadBytes s 0 s.expLen = some bytes) (hf : parseFrame bytes = some f) :
    finish s = .next (finishFields f s) := by
  simp [finish, hb, hf]

/-- R427: what an acknowledgement does, complete or not. -/
theorem finishReply_next {o : Byte} {k : Nat} {f : FrameFields} {s t : State}
    (h : finishReply o k f s = .next t) :
    (replyDue o k s = true ∧ t = finishFields f s) ∨ (replyDue o k s = false ∧ t = s) := by
  unfold finishReply at h
  cases hd : replyDue o k s with
  | true => simp [hd] at h; exact .inl ⟨rfl, h.symm⟩
  | false => simp [hd] at h; exact .inr ⟨rfl, h.symm⟩

/-- R427: when a reply is due. -/
theorem replyDue_iff {o : Byte} {k : Nat} {s : State} :
    replyDue o k s = true ↔ s.st = .awaiting ∧ s.latched = true ∧ s.op = o ∧ s.expLen = k ∧ s.rxCnt = k := by
  simp [replyDue, and_assoc]

/-! ## Sending and receiving -/

/-- R504: what a send step that answers a next state did. -/
theorem sendStep_next {s t : State} (h : sendStep s = .next t) :
    s.latched = true ∧ ∃ b, frameByte s s.txIdx = some b ∧
      ((s.pins.txAccept = true ∧ t = acceptByte b s) ∨ (s.pins.txAccept = false ∧ t = s)) := by
  unfold sendStep at h
  cases hl : s.latched with
  | false => simp [hl] at h
  | true =>
    refine ⟨rfl, ?_⟩
    simp only [hl, if_true] at h
    split at h
    · simp at h
    · rename_i b hb
      refine ⟨b, hb, ?_⟩
      cases ha : s.pins.txAccept with
      | true => simp [ha] at h; exact .inl ⟨rfl, h.symm⟩
      | false => simp [ha] at h; exact .inr ⟨rfl, h.symm⟩

/-- R506 to R508: what a poll that answers a next state did. -/
theorem pollStep_next {s t : State} (h : pollStep s = .next t) :
    (s.chanRx = [] ∧ t = s) ∨
      ∃ b q, s.chanRx = b :: q ∧ s.rxCnt < s.expLen ∧ s.rxCnt < s.cfg.rMax ∧
        ((s.rxCnt + 1 = s.expLen ∧ finishStep (storeByte b q s) = .next t) ∨
          (s.rxCnt + 1 ≠ s.expLen ∧ t = storeByte b q s)) := by
  unfold pollStep at h
  split at h
  · rename_i hq
    exact .inl ⟨hq, (Host.Outcome.next.inj h).symm⟩
  · rename_i b q hq
    refine .inr ⟨b, q, hq, ?_⟩
    split at h
    · rename_i hc
      refine ⟨hc.1, hc.2, ?_⟩
      split at h
      · rename_i he
        exact .inl ⟨he, h⟩
      · rename_i he
        exact .inr ⟨he, (Host.Outcome.next.inj h).symm⟩
    · simp at h

/-- R505: what a step in `AWAITING` that answers a next state did. -/
theorem awaitStep_next {s t : State} (h : awaitStep s = .next t) :
    s.latched = true ∧
      ((s.deadline ≤ s.now ∧ t = raiseOutcome .timeout (detailOfCount s.rxCnt) s) ∨
        (s.now < s.deadline ∧ pollStep s = .next t)) := by
  unfold awaitStep at h
  cases hl : s.latched with
  | false => simp [hl] at h
  | true =>
    refine ⟨rfl, ?_⟩
    simp only [hl, if_true] at h
    split at h
    · rename_i hd
      exact .inl ⟨hd, (Host.Outcome.next.inj h).symm⟩
    · rename_i hd
      exact .inr ⟨by omega, h⟩

/-- R500, R454: what a step that answers a next state did. -/
theorem step_next {s t : State} (h : step s = .next t) :
    catalogWellFormed s.cfg = true ∧
      (((loadInput s).pins.reset = true ∧ t = resetEngine (loadInput s)) ∨
        ((loadInput s).pins.reset = false ∧ ((loadInput s).pins.start = true → busy s = false) ∧
          engineStep (loadInput s) = .next t)) := by
  unfold step at h
  cases hw : catalogWellFormed s.cfg with
  | false => simp [hw] at h
  | true =>
    refine ⟨rfl, ?_⟩
    simp only [hw, if_true, clockedStep] at h
    have hb : busy (loadInput s) = busy s := by simp [busy]
    rw [hb] at h
    cases hr : (loadInput s).pins.reset with
    | true => simp [hr] at h; exact .inl ⟨rfl, h.symm⟩
    | false =>
      simp only [hr, Bool.false_eq_true, if_false] at h
      split at h
      · simp at h
      · rename_i hs
        refine .inr ⟨rfl, fun hst => ?_, h⟩
        simpa [hst] using hs

end Sys2Proof.Machine
end

