-- ==== Sys2Proof/Laws/PerInstr.lean ====
section
/-! SUPPORT. Families of one lemma per instruction. FrameLength: the encoder gives each well-formed instruction as
many bytes as the catalog says its frame has (R300, R301, R450). -/

namespace Sys2Proof.Laws.FrameLength

/-- R300, R301, R450: the length of an instruction's frame. -/
def Statement (i : Instr) : Prop := i.wellFormed = true → (encode i).length = i.frameLength

theorem verifyPassword (p0 p1 p2 p3 : Byte) : Statement (.verifyPassword p0 p1 p2 p3) := fun _ => rfl

theorem checkFirmware : Statement .checkFirmware := fun _ => rfl

theorem configLed (c s k m : Byte) : Statement (.configLed c s k m) := fun _ => rfl

theorem ackVerifyPassword (a : U32) (c : Byte) (k : U16) : Statement (.ackVerifyPassword a c k) := fun _ => rfl

theorem ackCheckFirmware (a : U32) (c : Byte) (p : List Byte) (k : U16) : Statement (.ackCheckFirmware a c p k) := by
  intro h
  have hp : p.length = 32 := by simpa [Instr.wellFormed] using h
  simp [encode, Instr.frameLength, hp]

theorem ackConfigLed (a : U32) (c : Byte) (k : U16) : Statement (.ackConfigLed a c k) := fun _ => rfl

end Sys2Proof.Laws.FrameLength
end

