-- ==== Sys2Proof/Laws/Run.lean ====
section
/-! SUPPORT. Runs of several steps. -/

namespace Sys2Proof.Safety

open Sys2Proof.Machine

/-- A run is its first step and the run after it. -/
theorem runSteps_succ_of_next {k : Nat} {s t : State} (h : step s = .next t) : runSteps (k + 1) s = runSteps k t := by
  simp [runSteps, h]

/-- What a longer run that answers a next state did first. -/
theorem runSteps_succ_next {k : Nat} {s u : State} (h : runSteps (k + 1) s = .next u) :
    ∃ t, step s = .next t ∧ runSteps k t = .next u := by
  unfold runSteps at h
  split at h
  · rename_i t ht
    exact ⟨t, ht, h⟩
  · simp at h
  · simp at h

/-- The runs of Safety are the runs of Host/Core.lean on this machine. -/
theorem runSteps_eq_core_run (k : Nat) (s : State) : runSteps k s = Host.Core.run Sys2Proof.core k s := by
  induction k generalizing s with
  | zero => rfl
  | succ k ih =>
    have hstep : Sys2Proof.core.step s = step s := rfl
    simp only [runSteps, Host.Core.run]
    cases h : step s with
    | next t => rw [h] at hstep; simp only [ih]; rw [hstep]
    | fault r => rw [h] at hstep; rw [hstep]; rfl
    | refused r => rw [h] at hstep; rw [hstep]; rfl

end Sys2Proof.Safety
end

