-- ==== Sys2Proof/Tests/Slice0.lean ====
section
/-! SUPPORT. Tests. Expected values are those of spec/95_test_vectors.md (each test names its vector) or are worked
out from the rule named. The `witness_` theorems show concrete states and operands that meet the hypotheses of a
statement, one for each of its clauses. -/

namespace Sys2Proof.Tests

open Sys2Proof.Machine Sys2Proof.Safety Sys2Proof.Claims

/-! ## Helpers: small states -/

/-- The outcome is a next state with the property `p`. -/
def nextHas (o : Host.Outcome State Fault Refusal) (p : State → Bool) : Bool :=
  match o with
  | .next t => p t
  | _ => false

/-- The state a step or meaning leaves; `s` where it leaves none. -/
def after (o : Host.Outcome State Fault Refusal) (s : State) : State :=
  match o with
  | .next t => t
  | _ => s

/-- One step input with no strobe. -/
def quiet (accept : Bool) (arrive : List Byte) (tick : Nat) : StepInput :=
  { pins := { Pins.low with txAccept := accept }, arrive := arrive, tick := tick }

/-- One step input that asserts START. -/
def startInput (o : Byte) (ps : List Byte) (d : Nat) : StepInput :=
  { pins := { Pins.low with start := true, reqOpcode := o, reqParam := ps, reqDeadline := d }, arrive := [], tick := 1 }

/-- One step input that asserts RESET, and START where `start` says so. -/
def resetInput (start : Bool) : StepInput :=
  { pins := { Pins.low with reset := true, start := start, reqOpcode := 0x13 }, arrive := [], tick := 1 }

/-- `s` with this step's input. -/
def given (d : StepInput) (s : State) : State := { s with inputs := [d] }

/-- `SENDING` a VERIFY_PASSWORD request with four bytes, `k` bytes of its frame sent, deadline 1000. -/
def sendingAt (p : List Byte) (k : Nat) : State :=
  { State.reset with
    st := .sending, latched := true, op := 0x13, n := 4, expLen := 12, par := p, deadline := 1000, txIdx := k,
    txSum := sum16 ((frameBody 0x01 0x13 p).take (k - 6)) }

/-- `AWAITING` the reply to the command `o` with `n` and `E`, with the bytes `got` received, deadline 1000. -/
def awaitingWith (o : Byte) (n E : Nat) (got : List Byte) : State :=
  takeBytes got
    { State.reset with
      st := .awaiting, latched := true, op := o, n := n, expLen := E, deadline := 1000, txIdx := 12 + n,
      txSum := sum16 (frameBody 0x01 o (List.replicate n 0)) }

/-- V-DEC-1. -/
def replyOk : List Byte := [0xEF, 0x01, 0xFF, 0xFF, 0xFF, 0xFF, 0x07, 0x00, 0x03, 0x00, 0x00, 0x0A]

/-- V-DEC-2. -/
def replyRejected : List Byte := [0xEF, 0x01, 0xFF, 0xFF, 0xFF, 0xFF, 0x07, 0x00, 0x03, 0x01, 0x00, 0x0B]

/-- V-DEC-13's payload. -/
def firmwareBytes : List Byte :=
  [0, 1, 2, 3, 4, 5, 6, 7, 8, 9, 10, 11, 12, 13, 14, 15] ++
    [16, 17, 18, 19, 20, 21, 22, 23, 24, 25, 26, 27, 28, 29, 30, 31]

/-- V-DEC-13. -/
def replyFirmware : List Byte :=
  [0xEF, 0x01, 0xFF, 0xFF, 0xFF, 0xFF, 0x07, 0x00, 0x23, 0x00] ++ firmwareBytes ++ [0x02, 0x1A]

/-! ## Well-formedness -/

/-- R450, R452: a firmware reply has exactly 32 payload bytes; this is the only check. -/
theorem test_wellFormed_refuses_short_payload :
    (Instr.ackCheckFirmware 0xFFFFFFFF 0 (firmwareBytes.take 31) 0).wellFormed = false := by decide

theorem test_wellFormed_refuses_long_payload :
    (Instr.ackCheckFirmware 0xFFFFFFFF 0 (firmwareBytes ++ [0]) 0).wellFormed = false := by decide

theorem test_wellFormed_accepts_firmware_payload :
    (Instr.ackCheckFirmware 0xFFFFFFFF 0 firmwareBytes 0x021A).wellFormed = true := by decide

/-! ## Decoding: each row's frame, written out from R300, R301 and R450 to R453 -/

/-- V-ENC-5. -/
theorem test_decode_verifyPassword :
    decodeFrame 0 [0xEF, 0x01, 0xFF, 0xFF, 0xFF, 0xFF, 0x01, 0x00, 0x07, 0x13, 0x12, 0x34, 0x56, 0x78, 0x01, 0x2F] =
      .ok (.verifyPassword 0x12 0x34 0x56 0x78, []) := by rfl

/-- V-ENC-2. -/
theorem test_decode_checkFirmware :
    decodeFrame 0 [0xEF, 0x01, 0xFF, 0xFF, 0xFF, 0xFF, 0x01, 0x00, 0x03, 0x3A, 0x00, 0x3E] =
      .ok (.checkFirmware, []) := by rfl

/-- V-ENC-3. -/
theorem test_decode_configLed :
    decodeFrame 0 [0xEF, 0x01, 0xFF, 0xFF, 0xFF, 0xFF, 0x01, 0x00, 0x07, 0x35, 0x01, 0x50, 0x02, 0x03, 0x00, 0x93] =
      .ok (.configLed 0x01 0x50 0x02 0x03, []) := by rfl

/-- V-DEC-12. -/
theorem test_decode_ackVerifyPassword :
    decodeFrame 0x13 [0xEF, 0x01, 0x00, 0x00, 0x00, 0x01, 0x07, 0x00, 0x03, 0x00, 0x00, 0x0A] =
      .ok (.ackVerifyPassword 0x00000001 0x00 0x000A, []) := by rfl

/-- V-DEC-13. -/
theorem test_decode_ackCheckFirmware :
    decodeFrame 0x3A replyFirmware = .ok (.ackCheckFirmware 0xFFFFFFFF 0x00 firmwareBytes 0x021A, []) := by rfl

/-- V-DEC-2, to a CONFIG_LED in flight, with a byte after it. -/
theorem test_decode_ackConfigLed :
    decodeFrame 0x35 (replyRejected ++ [0x99]) = .ok (.ackConfigLed 0xFFFFFFFF 0x01 0x000B, [0x99]) := by rfl

/-- V-CAT-6: the neighbours of an opcode are no instruction. -/
theorem test_decode_rejects_unknown_opcode :
    decodeFrame 0 [0xEF, 0x01, 0xFF, 0xFF, 0xFF, 0xFF, 0x01, 0x00, 0x07, 0x14, 0, 0, 0, 0, 0x00, 0x1C] =
      .error .unknownOpcode := by rfl

/-- R300, R302, R306: wrong marker, packet type, address and length, and a frame cut short. -/
theorem test_decode_rejects_malformed :
    decodeFrame 0 [0xEE, 0x01, 0xFF, 0xFF, 0xFF, 0xFF, 0x01, 0x00, 0x03, 0x3A, 0x00, 0x3E] = .error .badStartMarker ∧
    decodeFrame 0 [0xEF, 0x01, 0xFF, 0xFF, 0xFF, 0xFF, 0x02, 0x00, 0x03, 0x3A, 0x00, 0x3E] = .error .badPacketType ∧
    decodeFrame 0 [0xEF, 0x01, 0xFF, 0xFF, 0xFF, 0xFE, 0x01, 0x00, 0x03, 0x3A, 0x00, 0x3E] = .error .badAddress ∧
    decodeFrame 0 [0xEF, 0x01, 0xFF, 0xFF, 0xFF, 0xFF, 0x01, 0x01, 0x03, 0x3A, 0x00, 0x3E] = .error .badLength ∧
    decodeFrame 0 [0xEF, 0x01, 0xFF, 0xFF, 0xFF, 0xFF, 0x01, 0x00, 0x03, 0x3A, 0x00] = .error .tooShort ∧
    decodeFrame 0x99 replyOk = .error .noReplyRow := by
  refine ⟨rfl, rfl, rfl, rfl, rfl, rfl⟩

/-- opcode_table.json: the table words of the rows. The last is the one word of rows ACK_VERIFY_PASSWORD and
ACK_CONFIG_LED (log entry 6). -/
theorem test_table_words :
    decodeTableWord 80 0xEF01FFFFFFFF01000713 = some (.verifyPassword 0 0 0 0) ∧
    decodeTableWord 80 0xEF01FFFFFFFF0100033A = some .checkFirmware ∧
    decodeTableWord 80 0xEF01FFFFFFFF01000735 = some (.configLed 0 0 0 0) ∧
    decodeTableWord 80 0xEF010000000007002300 = some (.ackCheckFirmware 0 0 (List.replicate 32 0) 0) ∧
    decodeTableWord 80 0xEF010000000007000300 = some (.ackVerifyPassword 0 0 0) := by decide

/-! ## Encoding (R400): V-ENC-4, V-ENC-6, V-ENC-9, S1 (b) -/

theorem test_encode_checksum_carry :
    encodeFrame 0x01 0x13 [0xFF, 0xFF, 0xFF, 0xFF] = some
      [0xEF, 0x01, 0xFF, 0xFF, 0xFF, 0xFF, 0x01, 0x00, 0x07, 0x13, 0xFF, 0xFF, 0xFF, 0xFF, 0x04, 0x17] := by decide

theorem test_encode_ack :
    encodeFrame 0x07 0x13 [0, 0, 0, 0] = some
      [0xEF, 0x01, 0xFF, 0xFF, 0xFF, 0xFF, 0x07, 0x00, 0x07, 0x13, 0, 0, 0, 0, 0x00, 0x21] := by decide

set_option maxRecDepth 4000 in
theorem test_encode_sum_wraps :
    ((encodeFrame 0x01 0x00 (List.replicate 257 0xFF)).map (fun f => (f.take 10, f.drop 267))) = some
      ([0xEF, 0x01, 0xFF, 0xFF, 0xFF, 0xFF, 0x01, 0x01, 0x04, 0x00], [0x00, 0x05]) := by decide

/-! ## One step of each instruction -/

/-- V-CAT-7, V-ST-2. -/
theorem test_verifyPassword_begins :
    nextHas (exec (.verifyPassword 0x12 0x34 0x56 0x78) State.reset) (fun t =>
      t.op == 0x13 && t.n == 4 && t.expLen == 12 && t.par == [0x12, 0x34, 0x56, 0x78] && status t == 0x0005) = true := by
  decide

/-- V-CAT-3. -/
theorem test_checkFirmware_begins :
    nextHas (exec .checkFirmware State.reset) (fun t =>
      t.op == 0x3A && t.n == 0 && t.expLen == 44 && t.st == .sending && t.chanTx == []) = true := by decide

/-- V-CAT-4: the four parameters in order. -/
theorem test_configLed_begins :
    nextHas (exec (.configLed 0x01 0x50 0x02 0x03) State.reset) (fun t =>
      t.op == 0x35 && t.n == 4 && t.expLen == 12 && t.par == [0x01, 0x50, 0x02, 0x03]) = true := by decide

/-- V-DEC-1, V-ST-4. -/
theorem test_ackVerifyPassword_ok :
    nextHas (exec (.ackVerifyPassword 0xFFFFFFFF 0x00 0x000A) (awaitingWith 0x13 4 12 replyOk)) (fun t =>
      status t == 0x001B && t.payloadLen == 0 && t.rxCksField == 0x000A && t.rxCksCalc == 0x000A &&
        t.rxAddr == 0xFFFFFFFF) = true := by decide

/-- V-DEC-4: the carried checksum is not the computed one. -/
theorem test_ackVerifyPassword_checksum :
    nextHas (exec (.ackVerifyPassword 0xFFFFFFFF 0x00 0x000B) (awaitingWith 0x13 4 12 replyOk)) (fun t =>
      status t == 0x014B && t.rxCksField == 0x000B && t.rxCksCalc == 0x000A) = true := by decide

/-- V-DEC-13. -/
theorem test_ackCheckFirmware_payload :
    nextHas (exec (.ackCheckFirmware 0xFFFFFFFF 0x00 firmwareBytes 0x021A) (awaitingWith 0x3A 0 44 replyFirmware))
      (fun t => status t == 0x001B && t.payloadLen == 32 && payloadAt t 0 == some 0 && payloadAt t 31 == some 31 &&
        payloadAt t 32 == none) = true := by decide

/-- V-DEC-2, V-ST-5. -/
theorem test_ackConfigLed_rejected :
    nextHas (exec (.ackConfigLed 0xFFFFFFFF 0x01 0x000B) (awaitingWith 0x35 4 12 replyRejected)) (fun t =>
      status t == 0x012B && t.detail == 0x01 && t.payloadLen == 0) = true := by decide

/-! ## One step of the sequencer -/

/-- V-CAT-5. -/
theorem test_unknown_opcode_refused :
    nextHas (step (given (startInput 0x01 [] 1000) State.reset)) (fun t =>
      status t == 0x015B && t.chanTx == [] && t.latched == false) = true := by decide

/-- V-TS-9: RESET wins over START. -/
theorem test_reset_wins :
    nextHas (step (given (resetInput true) (sendingAt [0, 0, 0, 0] 5))) (fun t => status t == 0x0000 && t.txIdx == 0) = true := by decide

/-- V-ENC-11: the byte at offset 9 takes `tx_sum` from 0x0008 to 0x001B. -/
theorem test_send_sums_opcode :
    nextHas (step (given (quiet true [] 1) (sendingAt [0, 0, 0, 0] 9))) (fun t =>
      t.txSum == 0x001B && t.chanTx == [0x13] && t.txIdx == 10 && t.st == .sending) = true := by decide

/-- V-ENC-11, V-ST-3: the last byte is the checksum's low byte, and enters `AWAITING`. -/
theorem test_send_last_byte :
    nextHas (step (given (quiet true [] 1) (sendingAt [0, 0, 0, 0] 15))) (fun t =>
      t.txSum == 0x001B && t.chanTx == [0x1B] && status t == 0x0006) = true := by decide

/-- V-TS-3: the twelfth byte decodes in the step that takes it; a byte behind it stays (V-TS-7). -/
theorem test_last_byte_decodes :
    nextHas (step (given (quiet false [0x0A, 0x99] 1) (awaitingWith 0x13 4 12 (replyOk.take 11)))) (fun t =>
      status t == 0x001B && t.rxCnt == 12 && t.rxSum == 0x000A && t.chanRx == [0x99]) = true := by decide

/-- V-TS-2: at the deadline the twelfth byte is not taken. -/
theorem test_deadline_before_poll :
    nextHas (step (given (quiet false [0x0A] 1000) (awaitingWith 0x13 4 12 (replyOk.take 11)))) (fun t =>
      status t == 0x0B3B && t.chanRx == [0x0A] && t.payloadLen == 0) = true := by decide

/-- V-DEC-10 and V-DEC-11: the first failing check names the reason, and the checksum is first. -/
theorem test_check_order :
    nextHas (finish (awaitingWith 0x13 4 12
      [0xEE, 0x01, 0xFF, 0xFF, 0xFF, 0xFF, 0x01, 0x00, 0x03, 0x00, 0x00, 0x04])) (fun t => status t == 0x024B) = true ∧
    nextHas (finish (awaitingWith 0x13 4 12
      [0xEF, 0x01, 0xFF, 0xFF, 0xFF, 0xFF, 0x01, 0x00, 0x03, 0x00, 0x00, 0x0A])) (fun t => status t == 0x014B) = true := by
  decide

/-- R311, V-CAT-2; R310: another byte count is a script error. -/
theorem test_script_lines :
    assembleLine Config.default (.exec .verifyPassword [] 1000) =
      .ok (some { Pins.low with start := true, reqOpcode := 0x13, reqParam := [0, 0, 0, 0], reqDeadline := 1000 }) ∧
    assembleLine Config.default (.exec .configLed [1, 0x50, 1] 1000) = .error .scriptError ∧
    assembleLine Config.default (.exec (.op 0x01) [] 1000) =
      .ok (some { Pins.low with start := true, reqOpcode := 0x01, reqDeadline := 1000 }) := by
  refine ⟨rfl, rfl, rfl⟩

/-- R310: lines read from their text; a bad keyword, a one-digit byte and a missing deadline are refused. -/
theorem test_script_text :
    readLines (linesFrom [] false ['R', 'E', 'S', 'E', 'T', ' ', ';', ' ', '0', '\n', 'W', 'A', 'I', 'T', '\n',
      'E', 'X', 'E', 'C', ' ', 'O', 'P', ' ', '3', 'a', ' ', 'F', '0', ' ', 'D', 'E', 'A', 'D', 'L', 'I', 'N', 'E', ' ',
      '1', '0', '2', '4']) = .ok [.reset, .wait, .exec (.op 0x3A) [0xF0] 1024] ∧
    readLines [['R', 'E', 'S', 'E', 'T', 'S']] = .error .scriptError ∧
    readByte ['7'] = none ∧
    readExecTail [['1', '3']] = none := by
  refine ⟨rfl, rfl, rfl, rfl⟩

/-! ## A table word placed where it is fetched runs -/

theorem test_table_word_runs_command :
    nextHas (step (State.reset.withFetchWord 80 0xEF01FFFFFFFF0100033A)) (fun t => t.op == 0x3A && t.st == .sending) =
      true := by decide

theorem test_table_word_runs_reply :
    nextHas (step (State.reset.withFetchWord 80 0xEF010000000007002300)) (fun t =>
      t.st == .done && t.rxCnt == 44 && t.rxCksCalc == 0x002A) = true := by decide

/-! ## Witnesses: instructions -/

theorem witness_CommandsBeginExchange :
    busy State.reset = false ∧ lookupCatalog State.reset.cfg.catalog 0x13 = some ⟨0x13, 4, 12⟩ ∧
    lookupCatalog State.reset.cfg.catalog 0x3A = some ⟨0x3A, 0, 44⟩ ∧
    lookupCatalog State.reset.cfg.catalog 0x35 = some ⟨0x35, 4, 12⟩ := by decide

/-- A table command from `DONE`, and an opcode a platform added. -/
theorem witness_StartBeginsExchange :
    (let s := given (startInput 0x35 [1, 2, 3, 4] 1000) (after (finish (awaitingWith 0x13 4 12 replyOk)) State.reset)
     catalogWellFormed s.cfg = true ∧ busy s = false ∧ (loadInput s).pins.reset = false ∧
       (loadInput s).pins.start = true ∧
       lookupCatalog s.cfg.catalog (loadInput s).pins.reqOpcode = some ⟨0x35, 4, 12⟩ ∧
       4 ≤ (loadInput s).pins.reqParam.length) ∧
    (let s := given (startInput 0x42 [7] 1000) { State.reset with cfg := { Config.default with
       catalog := ⟨0x42, 1, 20⟩ :: defaultCatalog } }
     catalogWellFormed s.cfg = true ∧ busy s = false ∧ (loadInput s).pins.reset = false ∧
       (loadInput s).pins.start = true ∧
       lookupCatalog s.cfg.catalog (loadInput s).pins.reqOpcode = some ⟨0x42, 1, 20⟩ ∧
       1 ≤ (loadInput s).pins.reqParam.length) := by decide

/-- An empty catalog for the commands, the default one for a raw request. -/
theorem witness_UnknownOpcodeIsRefused :
    (let s : State := { State.reset with cfg := { Config.default with catalog := [] } }
     busy s = false ∧ lookupCatalog s.cfg.catalog 0x13 = none ∧ lookupCatalog s.cfg.catalog 0x3A = none ∧
       lookupCatalog s.cfg.catalog 0x35 = none) ∧
    (let s := given (startInput 0x3B [] 1000) State.reset
     catalogWellFormed s.cfg = true ∧ busy s = false ∧ (loadInput s).pins.reset = false ∧
       (loadInput s).pins.start = true ∧ lookupCatalog s.cfg.catalog (loadInput s).pins.reqOpcode = none) := by decide

theorem witness_ShortRequestIsScriptError :
    let s : State := { State.reset with cfg := { Config.default with
      pMax := 5, catalog := [⟨0x13, 5, 12⟩, ⟨0x3A, 1, 44⟩, ⟨0x35, 5, 12⟩] } }
    busy s = false ∧ catalogWellFormed s.cfg = true ∧ lookupCatalog s.cfg.catalog 0x13 = some ⟨0x13, 5, 12⟩ ∧
      lookupCatalog s.cfg.catalog 0x3A = some ⟨0x3A, 1, 44⟩ ∧
      lookupCatalog s.cfg.catalog 0x35 = some ⟨0x35, 5, 12⟩ := by decide

theorem witness_StartWhileBusy :
    (let s := given (startInput 0x3A [] 1000) (sendingAt [0, 0, 0, 0] 3)
     catalogWellFormed s.cfg = true ∧ busy s = true ∧ (loadInput s).pins.reset = false ∧
       (loadInput s).pins.start = true) ∧
    (∃ t, engineStep (sendingAt [0, 0, 0, 0] 3) = .next t) ∧
    busy (awaitingWith 0x13 4 12 []) = true ∧ (∃ t, engineStep (awaitingWith 0x13 4 12 []) = .next t) := by
  refine ⟨by decide, ⟨_, rfl⟩, rfl, ⟨_, rfl⟩⟩

/-- One command that begins and one the catalog lacks. -/
theorem witness_CommandFrame :
    nextHas (exec .checkFirmware State.reset) (fun t => t.st == .sending) = true ∧
    nextHas (exec .checkFirmware { State.reset with cfg := { Config.default with catalog := [] } })
      (fun t => t.st == .done) = true := by decide

theorem witness_AcknowledgementsEndExchange :
    ReplyComplete 0x13 12 (awaitingWith 0x13 4 12 replyOk) ∧
    ReplyComplete 0x3A 44 (awaitingWith 0x3A 0 44 replyFirmware) ∧
    ReplyComplete 0x35 12 (awaitingWith 0x35 4 12 replyRejected) ∧
    (awaitingWith 0x13 4 12 replyOk).rxSum = 0x000A ∧
    (awaitingWith 0x13 4 12 replyOk).cfg.rxVerifyChecksum = true := by
  unfold ReplyComplete
  decide

theorem witness_AcknowledgementFrame :
    nextHas (exec (.ackConfigLed 0xFFFFFFFF 0x01 0x000B) (awaitingWith 0x35 4 12 replyRejected))
      (fun t => t.st == .done) = true ∧
    nextHas (exec (.ackConfigLed 0xFFFFFFFF 0x01 0x000B) State.reset) (fun t => t == State.reset) = true := by decide

/-- A reply one byte short, and a complete one to another command. -/
theorem witness_AcknowledgementNotDueChangesNothing :
    ¬ ReplyComplete 0x13 12 (awaitingWith 0x13 4 12 (replyOk.take 11)) ∧
    ¬ ReplyComplete 0x35 12 (awaitingWith 0x13 4 12 replyOk) := by
  unfold ReplyComplete
  decide

theorem witness_StepRunsDecodedInstruction :
    (let s := given (startInput 0x13 [0x12, 0x34, 0x56, 0x78] 1000) State.reset
     catalogWellFormed s.cfg = true ∧ busy s = false ∧ (loadInput s).pins.reset = false ∧
       (loadInput s).pins.start = true ∧ fetchCommand (loadInput s) = some (.verifyPassword 0x12 0x34 0x56 0x78)) ∧
    (let s := given (quiet false [0x0A] 1) (awaitingWith 0x13 4 12 (replyOk.take 11))
     AwaitingNow s ∧ (loadInput s).now < s.deadline ∧ (loadInput s).chanRx = [0x0A] ∧ s.rxCnt + 1 = s.expLen ∧
       s.expLen ≤ s.cfg.rMax ∧
       fetchReply (storeByte 0x0A [] (loadInput s)) = some (.ackVerifyPassword 0xFFFFFFFF 0x00 0x000A)) := by
  unfold AwaitingNow NoStrobe
  decide

theorem witness_AcknowledgementAgreesWithBuffer :
    let s := awaitingWith 0x3A 0 44 replyFirmware
    s.st = .awaiting ∧ s.latched = true ∧ s.rxCnt = s.expLen ∧ (fetchReply s).isSome = true := by decide

theorem witness_ResetStep :
    let s := given (resetInput false) (sendingAt [0, 0, 0, 0] 5)
    catalogWellFormed s.cfg = true ∧ (loadInput s).pins.reset = true := by decide

/-! ## Witnesses: sending -/

/-- The offsets where the clauses meet (5 and 6, 13 and 14, the last), accepted and refused. -/
theorem witness_SendStep :
    (∀ k ∈ [5, 6, 13, 14, 15], ∀ a ∈ [true, false],
      (let s := given (quiet a [] 1) (sendingAt [0x12, 0x34, 0x56, 0x78] k)
       (SendingNow s ∧ (frameByte s s.txIdx).isSome = true) ∧ (loadInput s).pins.txAccept = a)) := by
  unfold SendingNow NoStrobe
  decide

theorem witness_FramerByteIsEncodedByte :
    let s := sendingAt [0x12, 0x34, 0x56, 0x78] 15
    s.n ≤ s.par.length ∧ 15 < 12 + s.n ∧ s.txSum = sum16 (requestBody s) := by decide

/-- `Inv` of the state that sends four bytes of a VERIFY_PASSWORD frame of zeros. -/
theorem inv_sending (d : List StepInput) (k : Nat) (hk : k < 16) :
    Inv { sendingAt [0, 0, 0, 0] k with inputs := d } := by
  refine ⟨rfl, rfl, ?_, rfl, ?_, ?_, ?_, ?_, ?_⟩
  · intro a b h
    cases h
  · exact rfl
  · intro h
    cases h
  · intro _
    exact ⟨⟨rfl, rfl, show 4 ≤ 65532 by decide⟩, ⟨rfl, rfl, rfl, rfl, rfl, rfl⟩, hk, rfl, rfl, rfl⟩
  · intro h
    cases h
  · intro h
    cases h

/-- `Inv` of the state that has just sent such a frame and received nothing. -/
theorem inv_awaiting (d : List StepInput) : Inv { awaitingWith 0x13 4 12 [] with inputs := d } := by
  refine ⟨rfl, rfl, ?_, rfl, ?_, ?_, ?_, ?_, ?_⟩
  · intro a b h
    cases h
  · exact rfl
  · intro h
    cases h
  · intro h
    cases h
  · intro _
    exact ⟨⟨rfl, rfl, show 4 ≤ 65532 by decide⟩, ⟨rfl, rfl, rfl, rfl, rfl, rfl⟩, rfl, rfl, show 0 < 12 by decide, [], rfl, rfl⟩
  · intro h
    cases h

theorem witness_SentFrameInvariant :
    let s := given (quiet true [] 1) { sendingAt [0, 0, 0, 0] 4 with chanTx := [0x55, 0xEF, 0x01, 0xFF, 0xFF] }
    NoStrobe s ∧ SentSoFar [0x55] s ∧ ∃ t, step s = .next t ∧ t.chanTx = [0x55, 0xEF, 0x01, 0xFF, 0xFF, 0xFF] := by
  refine ⟨⟨rfl, rfl⟩, ⟨fun _ => rfl, fun h => ?_, fun h => ?_⟩, _, rfl, rfl⟩
  · cases h
  · cases h

theorem witness_AcceptingChannelSendsEncodedFrame :
    let ds := List.replicate 16 (quiet true [] 1)
    let s := { sendingAt [0, 0, 0, 0] 0 with inputs := ds }
    Inv s ∧ s.st = .sending ∧ s.txIdx = 0 ∧ s.inputs = ds ∧ ds.length = 12 + s.n ∧ ∀ d ∈ ds, Accepts d := by
  refine ⟨inv_sending _ 0 (by decide), rfl, rfl, rfl, rfl, ?_⟩
  intro d hd
  rw [List.eq_of_mem_replicate hd]
  exact ⟨rfl, rfl, rfl⟩

/-- The deadline 1000 is past. -/
theorem witness_SendingIgnoresDeadline :
    let s := given (quiet true [] 5000) (sendingAt [0, 0, 0, 0] 15)
    NoStrobe s ∧ s.st = .sending ∧ s.deadline < (loadInput s).now ∧ ∃ t, step s = .next t := by
  exact ⟨⟨rfl, rfl⟩, rfl, by decide, _, rfl⟩

/-! ## Witnesses: receiving -/

/-- At the deadline; one before it with nothing to take; and the offsets 5, 6, `E - 3` and `E - 2` before it. -/
theorem witness_AwaitStep :
    (let s := given (quiet false [] 1000) (awaitingWith 0x13 4 12 (replyOk.take 3))
     AwaitingNow s ∧ s.deadline = (loadInput s).now ∧ s.rxCnt < 256) ∧
    (let s := given (quiet false [] 999) (awaitingWith 0x13 4 12 [])
     AwaitingNow s ∧ (loadInput s).now + 1 = s.deadline ∧ (loadInput s).chanRx = []) ∧
    (∀ k ∈ [5, 6, 9, 10],
      (let s := given (quiet false [0x77] 999) (awaitingWith 0x13 4 12 (replyOk.take k))
       (AwaitingNow s ∧ s.rxCnt = k) ∧ (loadInput s).now < s.deadline ∧ (loadInput s).chanRx = [0x77] ∧
         s.rxCnt + 1 < s.expLen ∧ s.expLen ≤ s.cfg.rMax)) := by
  unfold AwaitingNow NoStrobe
  decide

/-- The count where DETAIL of a TIMEOUT becomes free (log entry 5): 255 is stated, 256 is not. -/
theorem witness_AwaitStep_detail_bound : detailOfCount 255 = 0xFF ∧ detailOfCount 256 = Config.freeDetail 256 := by
  exact ⟨rfl, rfl⟩

theorem witness_ReceivedBytesAreSummed :
    let s := awaitingWith 0x13 4 12 []
    s.rxCnt = 0 ∧ s.rxSum = 0 ∧ 12 ≤ s.expLen ∧ replyOk.length ≤ s.expLen := by decide

theorem witness_LastByteEndsExchange :
    let s := given (quiet false [0x0A, 0x99] 999) (awaitingWith 0x13 4 12 (replyOk.take 11))
    AwaitingNow s ∧ (loadInput s).now < s.deadline ∧ (loadInput s).chanRx = [0x0A, 0x99] ∧ s.rxCnt + 1 = s.expLen ∧
      12 ≤ s.expLen ∧ s.expLen ≤ s.cfg.rMax ∧ rxReadBytes s 0 s.rxCnt = some (replyOk.take 11) := by
  unfold AwaitingNow NoStrobe
  decide

/-- V-DEC-1, -2, -4, -5, -7 and -8: one reply for each way decode and interpretation end. -/
theorem witness_DecodeChecksInOrder :
    ∀ r ∈ [replyOk, replyRejected, [0xEF, 0x01, 0xFF, 0xFF, 0xFF, 0xFF, 0x07, 0x00, 0x03, 0x00, 0x00, 0x0B],
      [0xEE, 0x01, 0xFF, 0xFF, 0xFF, 0xFF, 0x07, 0x00, 0x03, 0x00, 0x00, 0x0A],
      [0xEF, 0x01, 0xFF, 0xFF, 0xFF, 0xFF, 0x01, 0x00, 0x03, 0x00, 0x00, 0x04],
      [0xEF, 0x01, 0xFF, 0xFF, 0xFF, 0xFF, 0x07, 0x00, 0x04, 0x00, 0x00, 0x0B]],
      12 ≤ (awaitingWith 0x13 4 12 r).expLen ∧
        rxReadBytes (awaitingWith 0x13 4 12 r) 0 (awaitingWith 0x13 4 12 r).expLen = some r := by decide

/-- V-TS-1: the deadline has passed and a byte waits. -/
theorem witness_PastDeadlineTimesOutAtOnce :
    let s := { awaitingWith 0x13 4 12 [] with inputs := [quiet false [0xEF] 1000] }
    Inv s ∧ NoStrobe s ∧ s.st = .awaiting ∧ s.rxCnt = 0 ∧ s.deadline ≤ (loadInput s).now := by
  exact ⟨inv_awaiting _, ⟨rfl, rfl⟩, rfl, rfl, by decide⟩

theorem witness_DeadlineBoundsAwaiting :
    let ds := [quiet false [0xEF] 999, quiet false [] 1]
    let s := { awaitingWith 0x13 4 12 [] with inputs := ds }
    Inv s ∧ s.st = .awaiting ∧ s.inputs = ds ∧ ds ≠ [] ∧
      (∀ d ∈ ds, d.pins.reset = false ∧ d.pins.start = false) ∧ s.deadline ≤ s.now + totalTick ds := by
  refine ⟨inv_awaiting _, rfl, rfl, by decide, by decide, by decide⟩

/-- Every byte a buffer holds is one it lists. -/
theorem read_mem {m : Memory} {a : Nat} {b : Byte} (h : Memory.read m a = some b) : (a, b) ∈ m := by
  induction m with
  | nil => cases h
  | cons c rest ih =>
    obtain ⟨k, v⟩ := c
    unfold Memory.read at h
    split at h
    · cases h
      simp_all
    · exact List.mem_cons_of_mem _ (ih h)

/-- V-DEC-13 and V-DEC-2: an exchange that ended OK with a payload, and one the sensor rejected. -/
theorem witness_PayloadExposedOnlyAfterOk :
    (let s := after (finish (awaitingWith 0x3A 0 44 replyFirmware)) State.reset
     Inv s ∧ s.st = .done ∧ s.outcome = .ok ∧ s.expLen = 44) ∧
    (let s := after (finish (awaitingWith 0x35 4 12 replyRejected)) State.reset
     Inv s ∧ s.st = .done ∧ s.outcome = .deviceRejected) := by
  have range : ∀ m : Memory, (∀ c ∈ m, c.1 < 44) → ∀ a b, Memory.read m a = some b → a < 44 :=
    fun m h a b hr => h _ (read_mem hr)
  refine ⟨⟨⟨by decide, by decide, range _ (by decide), by decide, ?_, ?_, ?_, ?_, ?_⟩, by decide, by decide, by decide⟩,
    ⟨⟨by decide, by decide, range _ (by decide), by decide, ?_, ?_, ?_, ?_, ?_⟩, by decide, by decide⟩⟩
  · exact rfl
  · intro h
    cases h
  · intro h
    cases h
  · intro h
    cases h
  · exact fun _ => ⟨by decide, fun _ => ⟨by decide, by decide, replyFirmware, by decide⟩, fun h => absurd (by decide) h⟩
  · show (0x01 : Byte) ≠ 0
    decide
  · intro h
    cases h
  · intro h
    cases h
  · intro h
    cases h
  · exact fun _ => ⟨by decide, fun h => absurd h (by decide), fun _ => by decide⟩

/-- Both busy states, with no request latched. -/
theorem witness_ReadWithoutValueFaults :
    (let s := given (quiet true [] 1) { State.reset with st := .sending }
     catalogWellFormed s.cfg = true ∧ NoStrobe s ∧ busy s = true ∧ s.latched = false) ∧
    (let s := given (quiet true [0xEF] 1) { State.reset with st := .awaiting }
     catalogWellFormed s.cfg = true ∧ NoStrobe s ∧ busy s = true ∧ s.latched = false) := by
  unfold NoStrobe
  decide

/-! ## Witnesses: the sequencer -/

/-- A next state for each row of R510, and for START while idle, a poll that is not the last and a hold. -/
theorem witness_TransitionsAreExactlyThese :
    nextHas (step (given (resetInput false) State.reset)) (fun t => t.st == .idle) = true ∧
    nextHas (step (given (startInput 0x3A [] 9) State.reset)) (fun t => t.st == .sending) = true ∧
    nextHas (step (given (startInput 0x01 [] 9) State.reset)) (fun t => t.outcome == .refused) = true ∧
    nextHas (step State.reset) (fun t => t.st == .idle) = true ∧
    nextHas (step (given (quiet true [] 1) (sendingAt [0, 0, 0, 0] 15))) (fun t => t.st == .awaiting) = true ∧
    nextHas (step (given (quiet true [] 1) (sendingAt [0, 0, 0, 0] 14))) (fun t => t.st == .sending) = true ∧
    nextHas (step (given (quiet false [] 1000) (awaitingWith 0x13 4 12 []))) (fun t => t.outcome == .timeout) = true ∧
    nextHas (step (given (quiet false [0x0A] 1) (awaitingWith 0x13 4 12 (replyOk.take 11))))
      (fun t => t.outcome == .ok) = true ∧
    nextHas (step (given (quiet false [0xEF] 1) (awaitingWith 0x13 4 12 []))) (fun t => t.st == .awaiting) = true := by
  decide

/-- The pins carry another request while `SENDING`, without START. -/
theorem witness_LatchedRequestIsStable :
    let s := given { quiet true [0x99] 1 with pins := { Pins.low with reqOpcode := 0x3A, txAccept := true } }
      (sendingAt [0, 0, 0, 0] 3)
    busy s = true ∧ (loadInput s).pins.reset = false ∧ nextHas (step s) (fun t => t.op == 0x13) = true := by decide

theorem witness_IdleAndDoneHold :
    let s := given (quiet true [0x99] 7) (after (finish (awaitingWith 0x13 4 12 replyOk)) State.reset)
    catalogWellFormed s.cfg = true ∧ busy s = false ∧ NoStrobe s ∧ s.st = .done := by
  unfold NoStrobe
  decide

/-- A byte sent, and a byte taken. -/
theorem witness_ChannelTraffic :
    nextHas (step (given (quiet true [] 1) (sendingAt [0, 0, 0, 0] 0))) (fun t => t.chanTx == [0xEF]) = true ∧
    nextHas (step (given (quiet false [0xEF, 0x01] 1) (awaitingWith 0x13 4 12 []))) (fun t => t.chanRx == [0x01]) =
      true := by decide

/-- BUSY set by START and cleared by the last byte; DONE cleared by START. -/
theorem witness_FlagsSetAndCleared :
    (let s := given (startInput 0x3A [] 9) State.reset
     busy s = false ∧ nextHas (step s) (fun t => busy t) = true) ∧
    (let s := given (quiet false [0x0A] 1) (awaitingWith 0x13 4 12 (replyOk.take 11))
     busy s = true ∧ nextHas (step s) (fun t => !busy t && doneFlag t) = true) ∧
    (let s := given (startInput 0x3A [] 9) (after (finish (awaitingWith 0x13 4 12 replyOk)) State.reset)
     doneFlag s = true ∧ nextHas (step s) (fun t => !doneFlag t) = true) := by decide

theorem witness_ConfigFixedClockMonotone :
    nextHas (step (given (quiet false [] 7) State.reset)) (fun t => t.now == 7) = true := by decide

/-! ## Witnesses: catalog, encoding, scripts, invariants -/

/-- Two entries of one opcode; an expected length below 12; a parameter count above `P_MAX`. -/
theorem witness_CatalogWellFormedMeaning :
    catalogWellFormed { Config.default with catalog := [⟨1, 0, 12⟩, ⟨1, 0, 12⟩] } = false ∧
    catalogWellFormed { Config.default with catalog := [⟨1, 0, 11⟩] } = false ∧
    catalogWellFormed { Config.default with catalog := [⟨1, 0, 45⟩] } = false ∧
    catalogWellFormed { Config.default with catalog := [⟨1, 5, 12⟩] } = false := by decide

theorem witness_DecodeInvertsEncode :
    (Instr.verifyPassword 0x12 0x34 0x56 0x78).wellFormed = true ∧
    (Instr.ackCheckFirmware 1 2 firmwareBytes 3).wellFormed = true := by decide

theorem witness_EncodeInvertsReplyDecode :
    (Instr.ackConfigLed 0xFFFFFFFF 0x01 0x000B).isReply = true ∧
    decodeFrame 0x35 (replyRejected ++ [0x99]) = .ok (.ackConfigLed 0xFFFFFFFF 0x01 0x000B, [0x99]) := by
  exact ⟨rfl, rfl⟩

theorem witness_DecodedHeaderMatchesRow :
    decodeFrame 0x3A replyFirmware = .ok (.ackCheckFirmware 0xFFFFFFFF 0x00 firmwareBytes 0x021A, []) := by rfl

/-- V-ENC-7 and V-ENC-8: the longest legal parameter sequence, and one byte more. -/
theorem witness_EncodedFrameLayout :
    (List.replicate 65532 (0xFF : Byte)).length ≤ 65532 ∧ 65532 < (List.replicate 65533 (0 : Byte)).length := by
  rw [List.length_replicate, List.length_replicate]
  decide

/-- S1 (b) and (c), and an encoded OK acknowledgement. -/
theorem witness_FrameRoundTrip :
    let s := awaitingWith 0x13 4 16 []
    (∃ bytes, encodeFrame 0x07 0x13 [0, 0, 0, 0] = some bytes) ∧ (∃ bytes, encodeFrame 0x07 0x00 [0, 0, 0, 0] = some bytes) ∧
    (∃ bytes, encodeFrame 0x01 0x13 [0, 0, 0, 0] = some bytes) ∧ 12 + [0, 0, 0, 0].length ≤ s.cfg.rMax ∧
    s.expLen = 12 + [0, 0, 0, 0].length ∧ s.rxCnt = 0 ∧ s.rxSum = 0 := by
  exact ⟨⟨_, rfl⟩, ⟨_, rfl⟩, ⟨_, rfl⟩, by decide, rfl, rfl, rfl⟩

theorem witness_ScriptLinesAssemble :
    (ScriptMnemonic.checkFirmware ≠ .verifyPassword ∧ CountStated Config.default .checkFirmware ∧
      ([] : List Byte).length = bytesExpected Config.default ScriptMnemonic.checkFirmware.opcode) ∧
    (CountStated Config.default .verifyPassword ∧
      [(0x00 : Byte)].length ≠ bytesExpected Config.default ScriptMnemonic.verifyPassword.opcode) ∧
    (CountStated Config.default (.op 0x01) ∧ lookupCatalog Config.default.catalog 0x01 = none) ∧
    lookupCatalog Config.default.catalog 0x3A = some ⟨0x3A, 0, 44⟩ := by
  unfold CountStated
  decide

/-- An empty catalog, and one whose VERIFY_PASSWORD takes five bytes. -/
theorem witness_MnemonicOutsideCatalogTakesNoBytes :
    (let c := { Config.default with catalog := [] }
     ScriptMnemonic.checkFirmware ≠ .verifyPassword ∧
       lookupCatalog c.catalog ScriptMnemonic.checkFirmware.opcode = none ∧
       lookupCatalog c.catalog ScriptMnemonic.verifyPassword.opcode = none ∧ [(0x00 : Byte)] ≠ [] ∧
       bytesExpected c 0x13 ≠ 4) ∧
    bytesExpected { Config.default with pMax := 5, catalog := [⟨0x13, 5, 12⟩] } 0x13 ≠ 4 := by decide

theorem witness_InvKeptByEveryStep :
    let s := given (quiet true [] 1) (sendingAt [0, 0, 0, 0] 15)
    Inv s ∧ ∃ t, step s = .next t ∧ t.st = .awaiting := by
  exact ⟨inv_sending _ 15 (by decide), _, rfl, rfl⟩

theorem witness_RunsNeverFault : Inv (sendingAt [0, 0, 0, 0] 0) := inv_sending [] 0 (by decide)

end Sys2Proof.Tests
end

section
/-! PROOFS. The two ways the engine runs a frame agree: a START on the decoded command with a START on the raw pins,
the decoded acknowledgement with decode of the raw buffer. -/

namespace Sys2Proof.Proofs

open Sys2Proof.Machine

/-- A busy engine is sending or awaiting (R107). -/
theorem busy_iff (s : State) : busy s = true ↔ s.st = .sending ∨ s.st = .awaiting := by
  unfold busy
  cases s.st <;> simp

/-- A START looks at no parameter byte from the catalog's `n` on. -/
theorem startRequest_take {o : Byte} {e : CatalogEntry} {s : State} (ps : List Byte)
    (hl : lookupCatalog s.cfg.catalog o = some e) :
    startRequest o (ps.take e.n) s = startRequest o ps s := by
  have hlen : (ps.take e.n).length < e.n ↔ ps.length < e.n := by simp
  simp only [startRequest, hl, hlen, latchRequest, List.take_take, Nat.min_self]

/-- R310: the bytes of a decoded command frame are the request on the pins, cut at the catalog's `n`. -/
theorem fetchCommand_some {s : State} {i : Instr} (h : fetchCommand s = some i) :
    ∃ e x y, lookupCatalog s.cfg.catalog s.pins.reqOpcode = some e ∧
      decodeCommand addressTx (lenField (s.pins.reqParam.take e.n).length) s.pins.reqOpcode
        (s.pins.reqParam.take e.n ++ [x, y]) = .ok (i, []) := by
  unfold fetchCommand at h
  split at h
  · cases h
  · rename_i e he
    split at h
    · cases h
    · rename_i bytes hb
      split at h
      · rename_i j hd
        cases h
        obtain ⟨-, rfl⟩ := encodeFrame_eq_some.mp hb
        rw [← List.append_nil (frameBytes _ _ _), decodeFrame_frameBytes, List.append_nil] at hd
        exact ⟨e, _, _, he, hd⟩
      · cases h

/-- A command decoded from `ps` and two checksum bytes runs the request with the parameter bytes `ps`. -/
theorem exec_decodeCommand {a : U32} {l : U16} {o x y : Byte} {ps : List Byte} {i : Instr}
    (h : decodeCommand a l o (ps ++ [x, y]) = .ok (i, [])) (s : State) : exec i s = startRequest o ps s := by
  obtain ⟨-, -, -, hrow⟩ := decodeCommand_ok h
  rcases hrow with ⟨p0, p1, p2, p3, u, v, rfl, rfl, -, htail⟩ | ⟨u, v, rfl, rfl, -, htail⟩ |
    ⟨p0, p1, p2, p3, u, v, rfl, rfl, -, htail⟩
  · obtain rfl := (List.append_inj' (s₂ := [p0, p1, p2, p3]) (t₁ := [x, y]) (t₂ := [u, v]) htail rfl).1
    rfl
  · obtain rfl := (List.append_inj' (s₂ := []) (t₁ := [x, y]) (t₂ := [u, v]) htail rfl).1
    rfl
  · obtain rfl := (List.append_inj' (s₂ := [p0, p1, p2, p3]) (t₁ := [x, y]) (t₂ := [u, v]) htail rfl).1
    rfl

/-- R310: running the command a request decodes to is running the request on the raw pins. -/
theorem startStep_eq_startRequest (s : State) :
    startStep s = startRequest s.pins.reqOpcode s.pins.reqParam s := by
  unfold startStep
  cases hf : fetchCommand s with
  | none => rfl
  | some i =>
    obtain ⟨e, x, y, hl, hd⟩ := fetchCommand_some hf
    exact (exec_decodeCommand hd s).trans (startRequest_take _ hl)

/-- A decoded acknowledgement is the encoding of its instruction, which answers the command in flight. -/
theorem eq_encode_of_decodeFrame {x : Byte} {bytes rest : List Byte} {i : Instr} (hi : i.isReply = true)
    (h : decodeFrame x bytes = .ok (i, rest)) :
    bytes = encode i ++ rest ∧ i.wellFormed = true ∧ i.command = x := by
  obtain ⟨b0, b1, b2, b3, b4, b5, b6, b7, b8, b9, tail, rfl, hmark, hdec⟩ := decodeFrame_ok h
  obtain ⟨rfl, rfl⟩ := eq_of_be16_eq hmark
  rcases hdec with ⟨-, hd⟩ | ⟨rfl, hd⟩
  · simp [(decodeCommand_ok hd).1] at hi
  · obtain ⟨-, hcmd, hwf, hrow⟩ := decodeReply_ok hd
    refine ⟨?_, hwf, hcmd⟩
    rcases hrow with ⟨k1, k0, rfl, hlen, rfl⟩ | ⟨p, k1, k0, rfl, hp, hlen, rfl⟩ | ⟨k1, k0, rfl, hlen, rfl⟩ <;>
      obtain ⟨rfl, rfl⟩ := eq_of_be16_eq hlen
    · simp [encode, ackBytes, bytes32_be32]
    · simp [encode, ackBytes, bytes32_be32, hp]
    · simp [encode, ackBytes, bytes32_be32]

/-- R302: the instruction fetched from the buffer is an acknowledgement of the command in flight, and the `E` bytes
there are its encoding. -/
theorem fetchReply_some {s : State} {i : Instr} (h : fetchReply s = some i) :
    i.isReply = true ∧ i.wellFormed = true ∧ i.command = s.op ∧ (encode i).length = s.expLen ∧
      rxReadBytes s 0 s.expLen = some (encode i) := by
  unfold fetchReply at h
  split at h
  · cases h
  · rename_i bytes hb
    split at h
    · rename_i j hd
      split at h
      · rename_i hj
        cases h
        obtain ⟨hbytes, hwf, hcmd⟩ := eq_encode_of_decodeFrame hj hd
        rw [List.append_nil] at hbytes
        subst hbytes
        exact ⟨hj, hwf, hcmd, rxReadBytes_length hb, hb⟩
      · cases h
    · cases h

/-- R427: the acknowledgement fetched from a complete reply is due, and running it is `finish` on the buffer. -/
theorem exec_of_fetchReply {s : State} {i : Instr} (hst : s.st = .awaiting) (hl : s.latched = true)
    (hcnt : s.rxCnt = s.expLen) (hf : fetchReply s = some i) : exec i s = finish s := by
  obtain ⟨hi, hwf, hcmd, hlen, hb⟩ := fetchReply_some hf
  have hdue : ∀ k, (encode i).length = k → replyDue i.command k s = true := by
    rintro _ rfl
    exact replyDue_iff.mpr ⟨hst, hl, hcmd.symm, hlen.symm, hcnt.trans hlen.symm⟩
  cases i with
  | verifyPassword _ _ _ _ => cases hi
  | checkFirmware => cases hi
  | configLed _ _ _ _ => cases hi
  | ackVerifyPassword a c k =>
    rw [finish_of_bytes hb (parseFrame_ackBytes a c [] k)]
    exact if_pos (hdue 12 rfl)
  | ackConfigLed a c k =>
    rw [finish_of_bytes hb (parseFrame_ackBytes a c [] k)]
    exact if_pos (hdue 12 rfl)
  | ackCheckFirmware a c p k =>
    have hp : p.length = 32 := by simpa [Instr.wellFormed] using hwf
    rw [finish_of_bytes hb (parseFrame_ackBytes a c p k), hp]
    exact if_pos (hdue 44 (by simp [encode, hp]))

/-- R507: running the acknowledgement a complete reply decodes to is running decode on the raw buffer. -/
theorem finishStep_eq_finish {s : State} (hst : s.st = .awaiting) (hl : s.latched = true)
    (hcnt : s.rxCnt = s.expLen) : finishStep s = finish s := by
  unfold finishStep
  cases hf : fetchReply s with
  | none => rfl
  | some i => exact exec_of_fetchReply hst hl hcnt hf

end Sys2Proof.Proofs
end

section
/-! PROOFS. Everything a step can do, said once: the engine's moves (R500), each with its guards and the state it
leaves. -/

namespace Sys2Proof.Proofs

open Sys2Proof.Machine

/-- R500: the moves of a step without RESET, from the state `s` that has this step's inputs. -/
inductive EngineMove (s : State) : State → Prop where
  /-- R509: no request in `IDLE` or `DONE`. -/
  | hold (notBusy : busy s = false) (start : s.pins.start = false) : EngineMove s s
  /-- R503: a request for an opcode outside the catalog. -/
  | refuse (notBusy : busy s = false) (start : s.pins.start = true)
      (entry : lookupCatalog s.cfg.catalog s.pins.reqOpcode = none) : EngineMove s (refuseRequest (clearResults s))
  /-- R502: a request for an opcode in the catalog. -/
  | latch (e : CatalogEntry) (notBusy : busy s = false) (start : s.pins.start = true)
      (entry : lookupCatalog s.cfg.catalog s.pins.reqOpcode = some e) (encodable : e.n ≤ maxParams)
      (given : e.n ≤ s.pins.reqParam.length) :
      EngineMove s (latchRequest s.pins.reqOpcode e s.pins.reqParam (clearResults s))
  /-- R504: the channel accepts the presented byte. -/
  | send (b : Byte) (st : s.st = .sending) (latched : s.latched = true) (byte : frameByte s s.txIdx = some b)
      (accept : s.pins.txAccept = true) : EngineMove s (acceptByte b s)
  /-- R504: the channel does not accept the presented byte. -/
  | stall (b : Byte) (st : s.st = .sending) (latched : s.latched = true) (byte : frameByte s s.txIdx = some b)
      (accept : s.pins.txAccept = false) : EngineMove s s
  /-- R505: the deadline has come. -/
  | timeout (st : s.st = .awaiting) (latched : s.latched = true) (due : s.deadline ≤ s.now) :
      EngineMove s (raiseOutcome .timeout (detailOfCount s.rxCnt) s)
  /-- R508: an empty poll. -/
  | emptyPoll (st : s.st = .awaiting) (latched : s.latched = true) (ahead : s.now < s.deadline)
      (empty : s.chanRx = []) : EngineMove s s
  /-- R506: a byte of the reply before its last. -/
  | store (b : Byte) (q : List Byte) (st : s.st = .awaiting) (latched : s.latched = true)
      (ahead : s.now < s.deadline) (head : s.chanRx = b :: q) (room : s.rxCnt < s.cfg.rMax)
      (more : s.rxCnt + 1 < s.expLen) : EngineMove s (storeByte b q s)
  /-- R507: the last byte of the reply, whose `E` bytes parse to `f`. -/
  | finish (b : Byte) (q bytes : List Byte) (f : FrameFields) (st : s.st = .awaiting) (latched : s.latched = true)
      (ahead : s.now < s.deadline) (head : s.chanRx = b :: q) (room : s.rxCnt < s.cfg.rMax)
      (last : s.rxCnt + 1 = s.expLen) (read : rxReadBytes (storeByte b q s) 0 s.expLen = some bytes)
      (parsed : parseFrame bytes = some f) : EngineMove s (finishFields f (storeByte b q s))

/-- R501 to R503: an accepted START refuses or latches. -/
theorem EngineMove.of_startStep {s t : State} (hs : s.pins.start = true) (h : startStep s = .next t) :
    EngineMove s t := by
  rw [startStep_eq_startRequest] at h
  obtain ⟨hb, ⟨hl, rfl⟩ | ⟨e, hl, hn, hp, rfl⟩⟩ := startRequest_next h
  · exact .refuse hb hs hl
  · exact .latch e hb hs hl hn hp

/-- R504: the send step sends or stalls. -/
theorem EngineMove.of_sendStep {s t : State} (hst : s.st = .sending) (h : sendStep s = .next t) :
    EngineMove s t := by
  obtain ⟨hl, b, hb, ⟨ha, rfl⟩ | ⟨ha, rfl⟩⟩ := sendStep_next h
  · exact .send b hst hl hb ha
  · exact .stall b hst hl hb ha

/-- R506 to R508: the poll before the deadline. -/
theorem EngineMove.of_pollStep {s t : State} (hst : s.st = .awaiting) (hl : s.latched = true)
    (hnow : s.now < s.deadline) (h : pollStep s = .next t) : EngineMove s t := by
  obtain ⟨hq, rfl⟩ | ⟨b, q, hq, hcnt, hcap, ⟨hlast, hfin⟩ | ⟨hmore, rfl⟩⟩ := pollStep_next h
  · exact .emptyPoll hst hl hnow hq
  · rw [finishStep_eq_finish (by simpa using hst) (by simpa using hl) (by simpa using hlast)] at hfin
    obtain ⟨bytes, f, hread, hparse, rfl⟩ := finish_next hfin
    exact .finish b q bytes f hst hl hnow hq hcap hlast (by simpa using hread) hparse
  · exact .store b q hst hl hnow hq hcap (by omega)

/-- R505: the step in `AWAITING` times out or polls. -/
theorem EngineMove.of_awaitStep {s t : State} (hst : s.st = .awaiting) (h : awaitStep s = .next t) :
    EngineMove s t := by
  obtain ⟨hl, ⟨hd, rfl⟩ | ⟨hd, hpoll⟩⟩ := awaitStep_next h
  · exact .timeout hst hl hd
  · exact .of_pollStep hst hl hd hpoll

/-- R509: outside the busy states the engine looks at START alone. -/
theorem engineStep_of_not_busy {s : State} (hb : busy s = false) :
    engineStep s = if s.pins.start then startStep s else .next s := by
  unfold engineStep
  cases hst : s.st <;> simp_all [busy]

theorem engineStep_of_sending {s : State} (hst : s.st = .sending) : engineStep s = sendStep s := by
  simp [engineStep, hst]

theorem engineStep_of_awaiting {s : State} (hst : s.st = .awaiting) : engineStep s = awaitStep s := by
  simp [engineStep, hst]

/-- R500: whatever the engine does in a step without RESET is one of its moves. -/
theorem EngineMove.of_engineStep {s t : State} (h : engineStep s = .next t) : EngineMove s t := by
  cases hb : busy s with
  | true =>
    rcases (busy_iff s).mp hb with hst | hst
    · exact .of_sendStep hst (engineStep_of_sending hst ▸ h)
    · exact .of_awaitStep hst (engineStep_of_awaiting hst ▸ h)
  | false =>
    rw [engineStep_of_not_busy hb] at h
    split at h
    · exact .of_startStep ‹_› h
    · cases h
      exact .hold hb (by simpa using ‹¬ s.pins.start = true›)

/-- R500: a step that answers a next state is a RESET or one of the engine's moves. -/
theorem step_reset_or_move {s t : State} (h : step s = .next t) :
    ((loadInput s).pins.reset = true ∧ t = resetEngine (loadInput s)) ∨
      ((loadInput s).pins.reset = false ∧ EngineMove (loadInput s) t) := by
  obtain ⟨-, hreset | ⟨hr, -, he⟩⟩ := step_next h
  · exact .inl hreset
  · exact .inr ⟨hr, .of_engineStep he⟩

/-! ## What no move touches -/

@[simp] theorem finishFields_cfg (f : FrameFields) (s : State) : (finishFields f s).cfg = s.cfg := by
  simp [finishFields_frame f s]

@[simp] theorem finishFields_now (f : FrameFields) (s : State) : (finishFields f s).now = s.now := by
  simp [finishFields_frame f s]

@[simp] theorem finishFields_chanTx (f : FrameFields) (s : State) : (finishFields f s).chanTx = s.chanTx := by
  simp [finishFields_frame f s]

@[simp] theorem finishFields_chanRx (f : FrameFields) (s : State) : (finishFields f s).chanRx = s.chanRx := by
  simp [finishFields_frame f s]

/-- R113, R116: no move of the engine changes the configuration or the clock. -/
theorem EngineMove.cfg_now {s t : State} (h : EngineMove s t) : t.cfg = s.cfg ∧ t.now = s.now := by
  cases h with
  | hold | refuse | latch | send | stall | timeout | emptyPoll | store => exact ⟨rfl, rfl⟩
  | finish => simp

/-! ## The step's inputs -/

@[simp] theorem busy_loadInput (s : State) : busy (loadInput s) = busy s := by
  simp [busy]

@[simp] theorem frameByte_loadInput (s : State) (i : Nat) : frameByte (loadInput s) i = frameByte s i := by
  simp [frameByte]

/-- R113: the environment never moves the clock back. -/
theorem now_le_loadInput (s : State) : s.now ≤ (loadInput s).now := by
  unfold loadInput
  cases s.inputs with
  | nil => exact Nat.le_refl _
  | cons d rest => exact Nat.le_add_right _ _

end Sys2Proof.Proofs
end

section
/-! PROOFS. The statements of 10_state.md: the channel, the flags and the STATUS word, the configuration and the clock,
and the registers that hold no value after RESET. -/

namespace Sys2Proof.Proofs

open Sys2Proof.Machine Sys2Proof.Safety Sys2Proof.Claims

/-! ## The channel (R111, R112) -/

/-- R111: in `SENDING` the framer presents the byte of the offset it stands at. -/
theorem presentedByte_of_sending {s : State} (hst : s.st = .sending) (hl : s.latched = true) :
    presentedByte s = frameByte s s.txIdx := by
  simp [presentedByte, hst, hl]

@[simp] theorem presentedByte_loadInput (s : State) : presentedByte (loadInput s) = presentedByte s := by
  simp [presentedByte]

/-- R111, R206: `ChanTx` only grows, by the presented byte that the channel accepts. -/
theorem EngineMove.chanTx {s t : State} (h : EngineMove s t) :
    t.chanTx = s.chanTx ∨ ∃ b, s.st = .sending ∧ s.pins.txAccept = true ∧ presentedByte s = some b ∧
      t.chanTx = s.chanTx ++ [b] := by
  cases h with
  | send b st latched byte accept =>
    exact .inr ⟨b, st, accept, (presentedByte_of_sending st latched).trans byte, rfl⟩
  | hold | refuse | latch | stall | timeout | emptyPoll | store => exact .inl rfl
  | finish => exact .inl (by simp)

/-- R112, R206: a move takes nothing from `ChanRx` but its head, in `AWAITING` before the deadline. -/
theorem EngineMove.chanRx {s t : State} (h : EngineMove s t) :
    t.chanRx = s.chanRx ∨ ∃ b, s.st = .awaiting ∧ s.now < s.deadline ∧ s.chanRx = b :: t.chanRx := by
  cases h with
  | store b q st latched ahead head => exact .inr ⟨b, st, ahead, head⟩
  | hold | refuse | latch | send | stall | timeout | emptyPoll => exact .inl rfl
  | finish b q bytes f st latched ahead head => exact .inr ⟨b, st, ahead, by simpa using head⟩

/-- Settles O32: RESET leaves the channel alone, and each move is one of the two traffic lemmas. -/
theorem channelTraffic : Obligations.ChannelTraffic := by
  intro s t h
  rcases step_reset_or_move h with ⟨-, rfl⟩ | ⟨-, hmove⟩
  · exact ⟨.inl (by simp), .inl rfl⟩
  · exact ⟨by simpa using hmove.chanTx, by simpa using hmove.chanRx⟩

/-! ## The flags (R109) -/

/-- R107: `DONE` is set exactly in the state `DONE`. -/
theorem doneFlag_iff (s : State) : doneFlag s = true ↔ s.st = .done := by
  unfold doneFlag
  cases s.st <;> simp

theorem busy_congr {s t : State} (h : t.st = s.st) : busy t = busy s := by
  simp [busy, h]

theorem busy_of_done {s : State} (h : s.st = .done) : busy s = false := by
  simp [busy, h]

/-- R109: from `IDLE` and `DONE` a move stays, enters `DONE`, or begins the exchange of a catalog opcode. -/
theorem EngineMove.st_of_not_busy {s t : State} (h : EngineMove s t) (hb : busy s = false) :
    t.st = s.st ∨ t.st = .done ∨
      (s.pins.start = true ∧ lookupCatalog s.cfg.catalog s.pins.reqOpcode ≠ none ∧ t.st = .sending) := by
  cases h with
  | hold => exact .inl rfl
  | refuse => exact .inr (.inl rfl)
  | latch e notBusy start entry => exact .inr (.inr ⟨start, by simp [entry], rfl⟩)
  | send _ st | stall _ st | timeout st | emptyPoll st | store _ _ st | finish _ _ _ _ st => simp [busy, st] at hb

/-- R109: from `SENDING` and `AWAITING` a move stays busy or enters `DONE`. -/
theorem EngineMove.st_of_busy {s t : State} (h : EngineMove s t) (hb : busy s = true) :
    busy t = true ∨ t.st = .done := by
  cases h with
  | hold notBusy | refuse notBusy | latch _ notBusy => simp [notBusy] at hb
  | stall | emptyPoll | store => exact .inl hb
  | send b st =>
    left
    rw [busy_iff, acceptByte_st, st]
    split <;> simp
  | timeout => exact .inr rfl
  | finish => exact .inr (finishFields_st _ _)

/-- Settles O33: RESET is a disjunct of every clearing, and the moves from the busy states and from the others are the
two lemmas above. -/
theorem flagsSetAndCleared : Obligations.FlagsSetAndCleared := by
  intro s t h
  rcases step_reset_or_move h with ⟨hr, rfl⟩ | ⟨-, hmove⟩
  · exact ⟨fun _ ht => by simp [busy] at ht, fun _ _ => .inr hr, (doneFlag_iff _).symm, fun _ _ => .inr hr⟩
  refine ⟨fun hs ht => ?_, fun hs ht => ?_, (doneFlag_iff t).symm, fun hs ht => ?_⟩
  · rcases hmove.st_of_not_busy (by simpa using hs) with hst | hst | ⟨hstart, hentry, -⟩
    · simp [busy_congr hst, hs] at ht
    · simp [busy_of_done hst] at ht
    · exact ⟨hstart, by simpa using hentry⟩
  · rcases hmove.st_of_busy (by simpa using hs) with hbusy | hdone
    · simp [hbusy] at ht
    · exact .inl hdone
  · have hdone : s.st = .done := (doneFlag_iff s).mp hs
    have hleft : t.st ≠ .done := fun hst => by simp [(doneFlag_iff t).mpr hst] at ht
    rcases hmove.st_of_not_busy (by simpa using busy_of_done hdone) with hst | hst | ⟨hstart, -, hst⟩
    · exact absurd (by simpa [hdone] using hst) hleft
    · exact absurd hst hleft
    · exact .inl ⟨hstart, hst⟩

/-! ## The configuration and the clock (R113, R116) -/

/-- Settles O35: RESET and every move keep both, and the environment only adds to the clock. -/
theorem configFixedClockMonotone : Obligations.ConfigFixedClockMonotone := by
  intro s t h
  have hkept : t.cfg = (loadInput s).cfg ∧ t.now = (loadInput s).now := by
    rcases step_reset_or_move h with ⟨-, rfl⟩ | ⟨-, hmove⟩
    · exact ⟨rfl, rfl⟩
    · exact hmove.cfg_now
  obtain ⟨hcfg, hnow⟩ := hkept
  exact ⟨by simpa using hcfg, hnow ▸ now_le_loadInput s, hnow⟩

/-! ## Registers with no value (R120, I11) -/

/-- R500: a step that sees neither strobe is the engine's own. -/
theorem step_of_noStrobe {s : State} (hw : catalogWellFormed s.cfg = true) (hns : NoStrobe s) :
    step s = engineStep (loadInput s) := by
  obtain ⟨hr, hs⟩ := hns
  simp [step, clockedStep, hw, hr, hs]

theorem sendStep_of_not_latched {s : State} (hl : s.latched = false) : sendStep s = .fault .noValueRegister := by
  simp [sendStep, hl]

theorem awaitStep_of_not_latched {s : State} (hl : s.latched = false) : awaitStep s = .fault .noValueRegister := by
  simp [awaitStep, hl]

/-- Settles O28: either busy state reads a latched register first. -/
theorem readWithoutValueFaults : Obligations.ReadWithoutValueFaults := by
  intro s hw hns hb hl
  rw [step_of_noStrobe hw hns]
  rcases (busy_iff s).mp hb with hst | hst
  · rw [engineStep_of_sending (by simpa using hst), sendStep_of_not_latched (by simpa using hl)]
  · rw [engineStep_of_awaiting (by simpa using hst), awaitStep_of_not_latched (by simpa using hl)]

/-! ## The STATUS word (R107, R108) -/

theorem status_state (s : State) : (status s).extractLsb' 0 2 = s.st.code :=
  BitVec.extractLsb'_append_eq_right

theorem status_busy (s : State) : (status s).getLsbD 2 = busy s := by
  rw [status, BitVec.getLsbD_append, BitVec.getLsbD_append]
  simp

theorem status_done (s : State) : (status s).getLsbD 3 = doneFlag s := by
  rw [status, BitVec.getLsbD_append, BitVec.getLsbD_append, BitVec.getLsbD_append]
  simp

theorem status_outcome (s : State) : (status s).extractLsb' 4 3 = s.outcome.code := by
  rw [status, BitVec.extractLsb'_append_eq_of_le (by decide), BitVec.extractLsb'_append_eq_of_le (by decide),
    BitVec.extractLsb'_append_eq_of_le (by decide)]
  exact BitVec.extractLsb'_append_eq_right

theorem status_bit7 (s : State) : (status s).getLsbD 7 = false := by
  rw [status, BitVec.getLsbD_append, BitVec.getLsbD_append, BitVec.getLsbD_append, BitVec.getLsbD_append,
    BitVec.getLsbD_append]
  simp

theorem status_detail (s : State) : (status s).extractLsb' 8 8 = s.detail := by
  rw [status, BitVec.extractLsb'_append_eq_of_le (by decide), BitVec.extractLsb'_append_eq_of_le (by decide),
    BitVec.extractLsb'_append_eq_of_le (by decide), BitVec.extractLsb'_append_eq_of_le (by decide)]
  exact BitVec.extractLsb'_append_eq_left

/-- R108, I20: the host reads back the outcome that STATUS codes. -/
theorem outcomeOfStatus_status (s : State) : outcomeOfStatus (status s) = .ok s.outcome := by
  rw [outcomeOfStatus, status_outcome]
  cases s.outcome <;> rfl

/-- Settles O34: one lemma per field. -/
theorem statusWordFields : Obligations.StatusWordFields := by
  intro s
  refine ⟨?_, ?_, ?_, ?_, status_bit7 s, status_detail s, outcomeOfStatus_status s⟩
  · rw [status_state]
    cases s.st <;> rfl
  · rw [status_busy, Bool.eq_iff_iff, busy_iff]
    simp
  · rw [status_done, Bool.eq_iff_iff, doneFlag_iff]
    simp
  · rw [status_outcome]
    cases s.outcome <;> rfl

/-! ## The invariant at reset (R120, R701) -/

/-- R450: the default catalog meets R454. -/
theorem catalogWellFormed_default : catalogWellFormed Config.default = true := by decide

/-- R120: the state after reset has its registers at their reset values. -/
theorem registersAtReset_reset : RegistersAtReset State.reset :=
  ⟨rfl, rfl, rfl, rfl, rfl, rfl, rfl, rfl, rfl, rfl, rfl, rfl⟩

/-- Settles O46: the engine is in `IDLE`, so the clauses of the other states ask nothing. -/
theorem invAtReset : Obligations.InvAtReset where
  catalog := catalogWellFormed_default
  bufferForm := Memory.wf_empty
  bufferRange a b h := by cases h
  parWidth := List.length_replicate
  detail := rfl
  idle _ := registersAtReset_reset
  sending h := by cases h
  awaiting h := by cases h
  done h := by cases h

end Sys2Proof.Proofs
end

section
/-! PROOFS. Every step keeps the invariant: the storage part that every sequencer state asks (R208, R454), the two
running checksums (R403, R410), and one lemma per move of the engine. -/

namespace Sys2Proof.Proofs

open Sys2Proof.Machine Sys2Proof.Safety Sys2Proof.Claims

/-! ## The storage part of the invariant -/

/-- What `Inv` asks of the configuration, the buffer and `par` in every sequencer state. -/
structure StorageInv (s : State) : Prop where
  catalog : catalogWellFormed s.cfg = true
  bufferForm : Memory.wf s.rxBuf = true
  bufferRange : ∀ a b, Memory.read s.rxBuf a = some b → a < s.cfg.rMax
  parWidth : s.par.length = s.cfg.pMax

theorem StorageInv.of_inv {s : State} (h : Inv s) : StorageInv s :=
  ⟨h.catalog, h.bufferForm, h.bufferRange, h.parWidth⟩

/-- A change that keeps the configuration, the buffer and the width of `par` keeps the storage part. -/
theorem StorageInv.congr {s t : State} (h : StorageInv s) (hcfg : t.cfg = s.cfg := by rfl)
    (hbuf : t.rxBuf = s.rxBuf := by rfl) (hpar : t.par.length = s.par.length := by rfl) : StorageInv t where
  catalog := hcfg ▸ h.catalog
  bufferForm := hbuf ▸ h.bufferForm
  bufferRange := by rw [hbuf, hcfg]; exact h.bufferRange
  parWidth := by rw [hpar, hcfg]; exact h.parWidth

/-- R208: a byte stored below `R_MAX` keeps the buffer canonical and in range. -/
theorem StorageInv.storeByte {s : State} (h : StorageInv s) (b : Byte) (q : List Byte) (room : s.rxCnt < s.cfg.rMax) :
    StorageInv (storeByte b q s) where
  catalog := h.catalog
  bufferForm := Memory.wf_write _ _ _ h.bufferForm
  bufferRange a c hread := by
    rw [storeByte_rxBuf] at hread
    by_cases ha : a = s.rxCnt
    · exact ha ▸ room
    · rw [Memory.read_write_other _ _ ha] at hread
      exact h.bufferRange a c hread
  parWidth := h.parWidth

/-! ## The invariant, by sequencer state -/

/-- R108: cleared results carry the detail of no outcome. -/
theorem detailLegal_of_cleared {s : State} (h : ResultsCleared s) : DetailLegal s.outcome s.detail := by
  obtain ⟨hout, hdet, -⟩ := h
  rw [hout]
  exact hdet

theorem inv_of_sending {s : State} (hst : s.st = .sending) (h : StorageInv s) (held : RequestHeld s)
    (cleared : ResultsCleared s) (inside : s.txIdx < 12 + s.n)
    (sum : s.txSum = sum16 ((requestBody s).take (s.txIdx - 6))) (cnt : s.rxCnt = 0) (rsum : s.rxSum = 0) : Inv s where
  __ := h
  detail := detailLegal_of_cleared cleared
  idle h' := by simp [hst] at h'
  sending _ := ⟨held, cleared, inside, sum, cnt, rsum⟩
  awaiting h' := by simp [hst] at h'
  done h' := by simp [hst] at h'

theorem inv_of_awaiting {s : State} (hst : s.st = .awaiting) (h : StorageInv s) (held : RequestHeld s)
    (cleared : ResultsCleared s) (sent : s.txIdx = 12 + s.n) (sum : s.txSum = sum16 (requestBody s))
    (inside : s.rxCnt < s.expLen) (taken : ∃ bytes, rxReadBytes s 0 s.rxCnt = some bytes ∧
      s.rxSum = sum16 ((bytes.take (s.expLen - 2)).drop 6)) : Inv s where
  __ := h
  detail := detailLegal_of_cleared cleared
  idle h' := by simp [hst] at h'
  sending h' := by simp [hst] at h'
  awaiting _ := ⟨held, cleared, sent, sum, inside, taken⟩
  done h' := by simp [hst] at h'

/-- R108: an exchange that ends with a named outcome other than `OK`, without payload. -/
theorem inv_of_done_not_ok {s : State} (hst : s.st = .done) (h : StorageInv s) (detail : DetailLegal s.outcome s.detail)
    (named : s.outcome ≠ .none) (notOk : s.outcome ≠ .ok) (payload : s.payloadLen = 0) : Inv s where
  __ := h
  detail := detail
  idle h' := by simp [hst] at h'
  sending h' := by simp [hst] at h'
  awaiting h' := by simp [hst] at h'
  done _ := ⟨named, fun hok => absurd hok notOk, fun _ => payload⟩

/-- R551: an exchange that ends `OK` holds its whole reply. -/
theorem inv_of_done_ok {s : State} (hst : s.st = .done) (h : StorageInv s) (ok : s.outcome = .ok)
    (detail : s.detail = 0) (long : minFrame ≤ s.expLen) (payload : s.payloadLen = s.expLen - minFrame)
    (reply : ∃ bytes, rxReadBytes s 0 s.expLen = some bytes) : Inv s where
  __ := h
  detail := by rw [ok]; exact detail
  idle h' := by simp [hst] at h'
  sending h' := by simp [hst] at h'
  awaiting h' := by simp [hst] at h'
  done _ := ⟨by simp [ok], fun _ => ⟨long, payload, reply⟩, fun hne => absurd ok hne⟩

/-! ## The request held -/

/-- R116, R454: the request held has room in `par`, and its reply is a frame. -/
theorem requestHeld_bounds {s : State} (h : StorageInv s) (held : RequestHeld s) :
    s.n ≤ s.par.length ∧ minFrame ≤ s.expLen := by
  obtain ⟨-, hentry, -⟩ := held
  obtain ⟨hn, hlen, -⟩ := lookupCatalog_bounds h.catalog hentry
  exact ⟨h.parWidth ▸ hn, hlen⟩

theorem requestBody_length {s : State} (hpar : s.n ≤ s.par.length) : (requestBody s).length = 4 + s.n := by
  simp [requestBody, hpar]

/-- R402, R304: the framer's bytes at offsets `6..9+n` are the summed part of the request's frame. -/
theorem frameByte_eq_requestBody {s : State} (hpar : s.n ≤ s.par.length) {k : Nat} (hk : k < 4 + s.n) :
    frameByte s (6 + k) = (requestBody s)[k]? := by
  match k with
  | 0 | 1 | 2 | 3 => simp [frameByte, requestBody, frameBody, hpar]
  | j + 4 =>
    have hj : j < s.n := by omega
    have hin : j + 10 ≤ 9 + s.n := by omega
    rw [show 6 + (j + 4) = j + 10 by omega]
    simp [frameByte, requestBody, frameBody, hin, hj]

/-! ## The running checksums -/

/-- R403: an accepted byte keeps `tx_sum` the sum of the bytes sent at offsets `6..9+n`. -/
theorem acceptByte_txSum_eq_sum16 {s : State} {b : Byte} (hpar : s.n ≤ s.par.length)
    (byte : frameByte s s.txIdx = some b) (sum : s.txSum = sum16 ((requestBody s).take (s.txIdx - 6))) :
    (acceptByte b s).txSum = sum16 ((requestBody s).take (s.txIdx + 1 - 6)) := by
  rw [acceptByte_txSum]
  split
  · next hsummed =>
    obtain ⟨k, hk⟩ := Nat.exists_eq_add_of_le hsummed.1
    rw [hk, frameByte_eq_requestBody hpar (by omega)] at byte
    rw [sum, hk, show 6 + k + 1 - 6 = k + 1 by omega, Nat.add_sub_cancel_left, List.take_add_one, byte]
    exact (sum16_snoc _ _).symm
  · next hpassed =>
    have hlen := requestBody_length hpar
    rw [sum]
    rcases Nat.lt_or_ge s.txIdx 6 with hlo | hhi
    · rw [show s.txIdx - 6 = 0 by omega, show s.txIdx + 1 - 6 = 0 by omega]
    · rw [List.take_of_length_le (by omega), List.take_of_length_le (by omega)]

/-- R410: a stored byte keeps `rx_sum` the sum of the bytes taken at offsets `6..E-3`. -/
theorem storeByte_rxSum_eq_sum16 {s : State} {bytes : List Byte} (b : Byte) (q : List Byte) (hlong : 3 ≤ s.expLen)
    (hlen : bytes.length = s.rxCnt) (sum : s.rxSum = sum16 ((bytes.take (s.expLen - 2)).drop 6)) :
    (storeByte b q s).rxSum = sum16 (((bytes ++ [b]).take (s.expLen - 2)).drop 6) := by
  rw [storeByte_rxSum]
  split
  · next hsummed =>
    rw [sum, List.take_of_length_le (by omega), List.take_of_length_le (by simp; omega),
      List.drop_append_of_le_length (by omega), sum16_snoc]
  · next hpassed =>
    rw [sum]
    rcases Nat.lt_or_ge s.rxCnt 6 with hlo | hhi
    · rw [List.drop_of_length_le (by simp; omega), List.drop_of_length_le (by simp; omega)]
    · rw [List.take_append_of_le_length (by omega)]

/-! ## The buffer's bytes -/

/-- I11: a read of the buffer depends on the buffer and on `rx_cnt` alone. -/
theorem rxReadBytes_of_buffer_eq {s t : State} (hcnt : t.rxCnt = s.rxCnt) (hbuf : t.rxBuf = s.rxBuf) (a k : Nat) :
    rxReadBytes t a k = rxReadBytes s a k :=
  rxReadBytes_congr fun i _ _ => by simp [rxRead, hcnt, hbuf]

@[simp] theorem rxReadBytes_loadInput (s : State) (a k : Nat) : rxReadBytes (loadInput s) a k = rxReadBytes s a k :=
  rxReadBytes_of_buffer_eq (by simp) (by simp) a k

@[simp] theorem rxReadBytes_finishFields (f : FrameFields) (s : State) (a k : Nat) :
    rxReadBytes (finishFields f s) a k = rxReadBytes s a k :=
  rxReadBytes_of_buffer_eq (by simp [finishFields_frame f s]) (by simp [finishFields_frame f s]) a k

/-! ## The environment and RESET -/

/-- R117: the environment's moves touch nothing `Inv` speaks of. -/
theorem inv_loadInput {s : State} (h : Inv s) : Inv (loadInput s) where
  catalog := by simpa using h.catalog
  bufferForm := by simpa using h.bufferForm
  bufferRange := by simpa using h.bufferRange
  parWidth := by simpa using h.parWidth
  detail := by simpa using h.detail
  idle := by simpa [RegistersAtReset, ResultsCleared] using h.idle
  sending := by simpa [RequestHeld, ResultsCleared, requestBody] using h.sending
  awaiting := by simpa [RequestHeld, ResultsCleared, requestBody] using h.awaiting
  done := by simpa using h.done

theorem registersAtReset_resetEngine (s : State) : RegistersAtReset (resetEngine s) :=
  ⟨rfl, rfl, rfl, rfl, rfl, rfl, rfl, rfl, rfl, rfl, rfl, rfl⟩

/-- R700: RESET keeps the catalog and empties the buffer. -/
theorem inv_resetEngine {s : State} (h : Inv s) : Inv (resetEngine s) where
  catalog := h.catalog
  bufferForm := Memory.wf_empty
  bufferRange a b hread := by cases hread
  parWidth := List.length_replicate
  detail := rfl
  idle _ := registersAtReset_resetEngine s
  sending hst := by cases hst
  awaiting hst := by cases hst
  done hst := by cases hst

/-! ## The moves of the engine -/

/-- R503: a refused request ends at once, with nothing received. -/
theorem inv_refuseRequest {s : State} (h : Inv s) : Inv (refuseRequest (clearResults s)) :=
  inv_of_done_not_ok rfl (StorageInv.of_inv h).congr rfl (by simp [refuseRequest]) (by simp [refuseRequest]) rfl

/-- R502: a request begins at the start of its frame, with the entry of its opcode. -/
theorem inv_latchRequest {s : State} (h : Inv s) {o : Byte} {e : CatalogEntry} {ps : List Byte}
    (entry : lookupCatalog s.cfg.catalog o = some e) (encodable : e.n ≤ maxParams) (given : e.n ≤ ps.length) :
    Inv (latchRequest o e ps (clearResults s)) := by
  obtain ⟨-, rfl⟩ := lookupCatalog_some entry
  have hroom : e.n ≤ s.par.length := h.parWidth ▸ (lookupCatalog_bounds h.catalog entry).1
  have hwidth : (latchRequest e.opcode e ps (clearResults s)).par.length = s.par.length := by
    simp [given, hroom]
  exact inv_of_sending rfl ((StorageInv.of_inv h).congr (hpar := hwidth)) ⟨rfl, entry, encodable⟩
    ⟨rfl, rfl, rfl, rfl, rfl, rfl⟩ (show 0 < 12 + e.n by omega) rfl rfl rfl

/-- R504: an accepted byte moves the framer one byte on, and the frame's last byte begins the wait for the
reply. -/
theorem inv_acceptByte {s : State} (h : Inv s) {b : Byte} (hst : s.st = .sending)
    (byte : frameByte s s.txIdx = some b) : Inv (acceptByte b s) := by
  obtain ⟨held, cleared, inside, sum, cnt, rsum⟩ := h.sending hst
  obtain ⟨hpar, hlong⟩ := requestHeld_bounds (.of_inv h) held
  have hsum := acceptByte_txSum_eq_sum16 hpar byte sum
  by_cases hlast : s.txIdx + 1 = 12 + s.n
  · have hall : (requestBody s).take (s.txIdx + 1 - 6) = requestBody s :=
      List.take_of_length_le (by rw [requestBody_length hpar]; omega)
    have hempty : rxReadBytes (acceptByte b s) 0 (acceptByte b s).rxCnt = some [] := by simp [cnt]
    exact inv_of_awaiting (by simp [hlast]) (StorageInv.of_inv h).congr held cleared hlast (hall ▸ hsum)
      (by simp only [acceptByte_rxCnt, acceptByte_expLen, cnt]; exact Nat.lt_of_lt_of_le (by decide) hlong)
      ⟨[], hempty, by simpa using rsum⟩
  · exact inv_of_sending (by simp [hlast, hst]) (StorageInv.of_inv h).congr held cleared
      (by simp only [acceptByte_txIdx, acceptByte_n]; omega) hsum cnt rsum

/-- R505: a reply that did not come in time leaves the cleared results but the outcome. -/
theorem inv_timeout {s : State} (h : Inv s) (hst : s.st = .awaiting) (d : Byte) : Inv (raiseOutcome .timeout d s) := by
  obtain ⟨-, ⟨-, -, payload, -⟩, -⟩ := h.awaiting hst
  exact inv_of_done_not_ok rfl (StorageInv.of_inv h).congr trivial (by simp) (by simp) payload

/-- R506: a byte before the reply's last moves the receiver one byte on. -/
theorem inv_storeByte {s : State} (h : Inv s) {b : Byte} {q : List Byte} (hst : s.st = .awaiting)
    (room : s.rxCnt < s.cfg.rMax) (more : s.rxCnt + 1 < s.expLen) : Inv (storeByte b q s) := by
  obtain ⟨held, cleared, sent, sum, -, bytes, hread, rsum⟩ := h.awaiting hst
  have hlong : 3 ≤ s.expLen := Nat.le_trans (by decide) (requestHeld_bounds (.of_inv h) held).2
  exact inv_of_awaiting hst ((StorageInv.of_inv h).storeByte b q room) held cleared sent sum more
    ⟨bytes ++ [b], rxReadBytes_storeByte b q s hread,
      storeByte_rxSum_eq_sum16 b q hlong (rxReadBytes_length hread) rsum⟩

/-- R602: a malformed reply's detail is one of the four reasons. -/
theorem detailLegal_malformed (r : MalformedReason) : DetailLegal .malformed r.toByte := by
  cases r <;> simp [DetailLegal, MalformedReason.toByte]

/-- R507: a complete reply ends the exchange with the outcome of decode or interpretation. -/
theorem inv_finishFields {s : State} (h : StorageInv s) (f : FrameFields) (payload : s.payloadLen = 0)
    (long : minFrame ≤ s.expLen) (reply : ∃ bytes, rxReadBytes s 0 s.expLen = some bytes) : Inv (finishFields f s) := by
  rw [← rxReadBytes_finishFields f] at reply
  rcases finishFields_cases f s with ⟨r, -, heq⟩ | ⟨-, hok, heq⟩ | ⟨-, hrej, heq⟩ <;> rw [heq] at reply ⊢
  · exact inv_of_done_not_ok rfl h.congr (detailLegal_malformed r) (by simp) (by simp) payload
  · exact inv_of_done_ok rfl h.congr rfl hok long rfl reply
  · exact inv_of_done_not_ok rfl h.congr hrej (by simp) (by simp) rfl

/-- Every move of the engine keeps the invariant. -/
theorem EngineMove.inv {s t : State} (hmove : EngineMove s t) (h : Inv s) : Inv t := by
  cases hmove with
  | hold | stall | emptyPoll => exact h
  | refuse => exact inv_refuseRequest h
  | latch e notBusy start entry encodable given => exact inv_latchRequest h entry encodable given
  | send b st latched byte => exact inv_acceptByte h st byte
  | timeout st => exact inv_timeout h st _
  | store b q st latched ahead head room more => exact inv_storeByte h st room more
  | finish b q bytes f st latched ahead head room last read =>
    obtain ⟨held, ⟨-, -, payload, -⟩, -⟩ := h.awaiting st
    have hlong : minFrame ≤ s.expLen := (requestHeld_bounds (.of_inv h) held).2
    exact inv_finishFields ((StorageInv.of_inv h).storeByte b q room) f payload hlong ⟨bytes, read⟩

/-- Settles O47: the environment's moves, RESET and each move of the engine keep `Inv`. -/
theorem invKeptByEveryStep : Obligations.InvKeptByEveryStep := by
  intro s t h hstep
  rcases step_reset_or_move hstep with ⟨-, rfl⟩ | ⟨-, hmove⟩
  · exact inv_resetEngine (inv_loadInput h)
  · exact hmove.inv (inv_loadInput h)

end Sys2Proof.Proofs
end

section
/-! PROOFS. The statements of 30_encoding.md: the decoder inverts the encoder, what decodes matches its row of the
opcode table, the layout of an encoded frame, and the requests of commands and of script lines. -/

namespace Sys2Proof.Proofs

open Sys2Proof.Machine

/-! ## The decoder inverts the encoder (R301, R302) -/

/-- R451: a tail of four parameter and two checksum bytes is the VERIFY_PASSWORD with those parameters. -/
theorem decodeCommand_verifyPassword (p0 p1 p2 p3 x y : Byte) (rest : List Byte) :
    decodeCommand addressTx (lenField 4) opVerifyPassword (p0 :: p1 :: p2 :: p3 :: x :: y :: rest) =
      .ok (.verifyPassword p0 p1 p2 p3, rest) := rfl

/-- R452: a tail of two checksum bytes is the CHECK_FIRMWARE. -/
theorem decodeCommand_checkFirmware (x y : Byte) (rest : List Byte) :
    decodeCommand addressTx (lenField 0) opCheckFirmware (x :: y :: rest) = .ok (.checkFirmware, rest) := rfl

/-- R453: a tail of four parameter and two checksum bytes is the CONFIG_LED with those parameters. -/
theorem decodeCommand_configLed (c s k m x y : Byte) (rest : List Byte) :
    decodeCommand addressTx (lenField 4) opConfigLed (c :: s :: k :: m :: x :: y :: rest) =
      .ok (.configLed c s k m, rest) := rfl

/-- R301: the reply to VERIFY_PASSWORD carries its checksum and nothing else after its confirmation byte. -/
theorem decodeReply_verifyPassword (a : U32) (c : Byte) (k : U16) (rest : List Byte) :
    decodeReply opVerifyPassword a (lenField 0) c (hi8 k :: lo8 k :: rest) =
      .ok (.ackVerifyPassword a c k, rest) := by
  simp [decodeReply]

/-- R301: the reply to CHECK_FIRMWARE carries 32 payload bytes before its checksum. -/
theorem decodeReply_checkFirmware (a : U32) (c : Byte) {p : List Byte} (k : U16) (rest : List Byte)
    (hp : p.length = 32) :
    decodeReply opCheckFirmware a (lenField 32) c (p ++ hi8 k :: lo8 k :: rest) =
      .ok (.ackCheckFirmware a c p k, rest) := by
  have hop : opCheckFirmware ≠ opVerifyPassword := by decide
  simp [decodeReply, hop, List.drop_left' hp, List.take_left' hp]

/-- R301: the reply to CONFIG_LED carries its checksum and nothing else after its confirmation byte. -/
theorem decodeReply_configLed (a : U32) (c : Byte) (k : U16) (rest : List Byte) :
    decodeReply opConfigLed a (lenField 0) c (hi8 k :: lo8 k :: rest) = .ok (.ackConfigLed a c k, rest) := by
  have hvp : opConfigLed ≠ opVerifyPassword := by decide
  have hcf : opConfigLed ≠ opCheckFirmware := by decide
  simp [decodeReply, hvp, hcf]

/-- Settles O39: each row's frame reaches its decoder with its fields and tail, and the decoder reads them back. -/
theorem decodeInvertsEncode : Obligations.DecodeInvertsEncode := by
  intro i rest hwf
  cases i with
  | verifyPassword p0 p1 p2 p3 =>
    exact (decodeFrame_frameBytes _ _ _ _).trans (decodeCommand_verifyPassword ..)
  | checkFirmware => exact (decodeFrame_frameBytes _ _ _ _).trans (decodeCommand_checkFirmware ..)
  | configLed c s k m => exact (decodeFrame_frameBytes _ _ _ _).trans (decodeCommand_configLed ..)
  | ackVerifyPassword a c k => exact (decodeFrame_ackBytes _ _ _ _ _ _).trans (decodeReply_verifyPassword ..)
  | ackCheckFirmware a c p k =>
    have hp : p.length = 32 := by simpa [Instr.wellFormed] using hwf
    refine (decodeFrame_ackBytes _ _ _ _ _ _).trans ?_
    rw [hp, List.append_assoc]
    exact decodeReply_checkFirmware a c k rest hp
  | ackConfigLed a c k => exact (decodeFrame_ackBytes _ _ _ _ _ _).trans (decodeReply_configLed ..)

/-- Settles O40, by the inversion of a decoded acknowledgement. -/
theorem encodeInvertsReplyDecode : Obligations.EncodeInvertsReplyDecode :=
  fun _ _ _ _ hi h => eq_encode_of_decodeFrame hi h

/-- Settles O38: the six frames run through the decoder. -/
theorem writtenFramesDecode : Obligations.WrittenFramesDecode :=
  ⟨rfl, rfl, rfl, rfl, rfl, rfl⟩

/-! ## The opcode table (R302) -/

/-- R302: `AND` of two header words is field by field. -/
theorem headerWord_and (m m' : U16) (a a' : U32) (t t' : Byte) (l l' : U16) (c c' : Byte) :
    headerWord m a t l c &&& headerWord m' a' t' l' c' =
      headerWord (m &&& m') (a &&& a') (t &&& t') (l &&& l') (c &&& c') :=
  BitVec.and_append.trans (by simp only [headerWord, BitVec.and_append])

/-- R302: the mask of an acknowledgement row passes the marker, the packet type and the length, and clears the address
and the confirmation byte. -/
theorem headerWord_and_ackMask (m : U16) (a : U32) (t : Byte) (l : U16) (c : Byte) :
    headerWord m a t l c &&& 0xFFFF00000000FFFFFF00 = headerWord m 0#32 t l 0#8 := by
  have hmask : (0xFFFF00000000FFFFFF00 : BitVec 80) =
      headerWord (.allOnes 16) 0#32 (.allOnes 8) (.allOnes 16) 0#8 := rfl
  simp only [hmask, headerWord_and, BitVec.and_allOnes, BitVec.and_zero]

/-- R302: the header word of a decoded command frame is its instruction's pattern, under a mask that passes every bit. -/
theorem decodeCommand_row {a : U32} {l : U16} {o : Byte} {tail rest : List Byte} {i : Instr}
    (h : decodeCommand a l o tail = .ok (i, rest)) :
    headerWord startMarker a ptCmd l o &&& i.row.mask = i.row.pattern := by
  obtain ⟨-, rfl, -, hrow⟩ := decodeCommand_ok h
  rcases hrow with ⟨p0, p1, p2, p3, x, y, rfl, rfl, rfl, -⟩ | ⟨x, y, rfl, rfl, rfl, -⟩ |
    ⟨p0, p1, p2, p3, x, y, rfl, rfl, rfl, -⟩ <;>
    exact BitVec.and_allOnes

/-- R302: the header word of a decoded acknowledgement frame matches its instruction's row, whatever its address and
confirmation byte. -/
theorem decodeReply_row {x : Byte} {a : U32} {l : U16} {c : Byte} {tail rest : List Byte} {i : Instr}
    (h : decodeReply x a l c tail = .ok (i, rest)) :
    headerWord startMarker a ptAck l c &&& i.row.mask = i.row.pattern := by
  obtain ⟨-, -, -, hrow⟩ := decodeReply_ok h
  rcases hrow with ⟨k1, k0, rfl, rfl, -⟩ | ⟨p, k1, k0, rfl, -, rfl, -⟩ | ⟨k1, k0, rfl, rfl, -⟩ <;>
    exact headerWord_and_ackMask ..

/-- Settles O41: a frame that decodes is a command frame or an acknowledgement frame, and each kind matches its rows. -/
theorem decodedHeaderMatchesRow : Obligations.DecodedHeaderMatchesRow := by
  intro x bytes rest i h
  obtain ⟨b0, b1, b2, b3, b4, b5, b6, b7, b8, b9, tail, rfl, hmark, hdec⟩ := decodeFrame_ok h
  refine ⟨headerWord (be16 b0 b1) (be32 b2 b3 b4 b5) b6 (be16 b7 b8) b9, rfl, ?_⟩
  rw [hmark]
  rcases hdec with ⟨rfl, hd⟩ | ⟨rfl, hd⟩
  · exact decodeCommand_row hd
  · exact decodeReply_row hd

/-! ## The layout of an encoded frame (R303, R304, R400) -/

/-- R10: the checksum is the sum of the bytes' values mod 65536. -/
theorem sum16_toNat (s : List Byte) : (sum16 s).toNat = (s.map BitVec.toNat).sum % 65536 := by
  induction s using List.reverseRecOn with
  | nil => rfl
  | append_singleton s b ih =>
    simp [sum16_snoc, addSum, ih]

/-- R9: a word is the number its two bytes make, high byte first. -/
theorem hi8_lo8_toNat (v : U16) : (hi8 v).toNat * 256 + (lo8 v).toNat = v.toNat := by
  rw [← be16_toNat, be16_hi8_lo8]

/-- Settles O42: the bytes of `frameBytes` are the layout by definition; the length and the checksum field are the
numbers of `lenField_toNat` and `sum16_toNat`. -/
theorem encodedFrameLayout : Obligations.EncodedFrameLayout := by
  intro t o p
  refine ⟨fun hlong => if_neg (Nat.not_le.mpr hlong), fun hfits => ?_⟩
  refine ⟨frameBytes t o p, hi8 (lenField p.length), lo8 (lenField p.length), hi8 (sum16 (frameBody t o p)),
    lo8 (sum16 (frameBody t o p)), if_pos hfits, rfl, frameBytes_length t o p, ?_, ?_⟩
  · rw [hi8_lo8_toNat, lenField_toNat hfits]
  · rw [hi8_lo8_toNat, sum16_toNat]
    simp [frameBody, Nat.add_assoc]

/-! ## Requests (R310) -/

/-- Settles O11, by the agreement of the decoded command with the request on the pins. -/
theorem commandAgreesWithRawRequest : Obligations.CommandAgreesWithRawRequest :=
  startStep_eq_startRequest

/-- R310, log entry 10: a request with fewer parameter bytes than the catalog's `n` is a script error. -/
theorem startRequest_scriptError {o : Byte} {ps : List Byte} {s : State} {e : CatalogEntry} (hb : busy s = false)
    (hl : lookupCatalog s.cfg.catalog o = some e) (hn : e.n ≤ maxParams) (hp : ps.length < e.n) :
    startRequest o ps s = .refused .scriptError := by
  simp [startRequest, hb, hl, hp, Nat.not_lt.mpr hn]

/-- Settles O4: a command is the request of its opcode with its operand bytes. -/
theorem shortRequestIsScriptError : Obligations.ShortRequestIsScriptError :=
  fun _ _ _ _ _ _ hb hn =>
    ⟨fun hl hp => startRequest_scriptError hb hl hn hp, fun hl hp => startRequest_scriptError hb hl hn hp,
      fun hl hp => startRequest_scriptError hb hl hn hp⟩

/-! ## Script lines (R310, R311) -/

/-- R310: the count of an opcode the catalog has. -/
theorem bytesExpected_of_some {c : Config} {o : Byte} {e : CatalogEntry} (h : lookupCatalog c.catalog o = some e) :
    bytesExpected c o = e.n := by
  simp [bytesExpected, h]

/-- R310: the count of an opcode the catalog lacks. -/
theorem bytesExpected_of_none {c : Config} {o : Byte} (h : lookupCatalog c.catalog o = none) :
    bytesExpected c o = 0 := by
  simp [bytesExpected, h]

/-- R311: nothing but VERIFY_PASSWORD with no bytes is expanded. -/
theorem expandPseudo_of_not_bare {m : ScriptMnemonic} {bytes : List Byte} (h : bytes ≠ [] ∨ m ≠ .verifyPassword) :
    expandPseudo m bytes = bytes := by
  cases m with
  | verifyPassword =>
    cases bytes with
    | nil => simp at h
    | cons b bs => rfl
  | checkFirmware | configLed | op => rfl

/-- The pins of the step an EXEC line stands for (R310): START with its opcode, bytes and deadline. -/
def execPins (m : ScriptMnemonic) (bytes : List Byte) (d : Nat) : Pins :=
  { Pins.low with start := true, reqOpcode := m.opcode, reqParam := bytes, reqDeadline := d }

/-- R310: an EXEC with exactly the expected bytes stands for START with them. -/
theorem assembleLine_exec {c : Config} {m : ScriptMnemonic} {bytes : List Byte} (d : Nat)
    (hbare : bytes ≠ [] ∨ m ≠ .verifyPassword) (hlen : bytes.length = bytesExpected c m.opcode) :
    assembleLine c (.exec m bytes d) = .ok (some (execPins m bytes d)) := by
  simp [assembleLine, expandPseudo_of_not_bare hbare, hlen, execPins]

/-- R310, I23: an EXEC whose bytes, once expanded, are not as many as expected is a script error. -/
theorem assembleLine_exec_scriptError {c : Config} {m : ScriptMnemonic} {bytes : List Byte} (d : Nat)
    (hlen : (expandPseudo m bytes).length ≠ bytesExpected c m.opcode) :
    assembleLine c (.exec m bytes d) = .error .scriptError := by
  simp [assembleLine, hlen]

/-- Settles O44: the counts are the catalog's, and an EXEC assembles exactly when its bytes are as many. -/
theorem scriptLinesAssemble : Obligations.ScriptLinesAssemble := by
  refine ⟨⟨rfl, rfl, rfl⟩, fun _ _ h => bytesExpected_of_none h, fun _ _ _ h => bytesExpected_of_some h,
    fun _ => ⟨rfl, _, rfl, rfl, rfl⟩, fun _ _ => rfl, fun c m bytes d hbare _ => ⟨fun hlen => ?_, fun hlen => ?_⟩⟩
  · exact ⟨_, assembleLine_exec d hbare hlen, rfl, rfl, rfl, rfl, rfl⟩
  · exact assembleLine_exec_scriptError d (by rwa [expandPseudo_of_not_bare hbare])

/-- Settles O45: an opcode the catalog lacks has the count 0, and the bare VERIFY_PASSWORD counts as four bytes. -/
theorem mnemonicOutsideCatalogTakesNoBytes : Obligations.MnemonicOutsideCatalogTakesNoBytes := by
  refine ⟨fun c m bytes d hbare hnone => ⟨?_, fun hne => ?_⟩, fun c d h4 => ?_⟩
  · rintro rfl
    exact ⟨_, assembleLine_exec d hbare (bytesExpected_of_none hnone).symm, rfl, rfl, rfl, rfl, rfl⟩
  · refine assembleLine_exec_scriptError d ?_
    rw [expandPseudo_of_not_bare hbare, bytesExpected_of_none hnone]
    exact fun h0 => hne (List.eq_nil_of_length_eq_zero h0)
  · exact assembleLine_exec_scriptError d h4.symm

end Sys2Proof.Proofs
end

section
/-! PROOFS. The statements of 40_frame_codec.md: the framer's bytes are the encoded frame and what is on the wire is its
part sent so far, the bytes received and their checksum, decode's checks in order, and the round trip of frames. -/

namespace Sys2Proof.Proofs

open Sys2Proof.Machine Sys2Proof.Safety Sys2Proof.Claims

/-! ## The framer's byte is the encoded byte (R402, R404) -/

/-- R300: a request's frame is six fixed bytes, the summed part and the checksum. -/
theorem requestFrame_eq (s : State) :
    requestFrame s = ([hi8 startMarker, lo8 startMarker] ++ bytes32 addressTx) ++
      (requestBody s ++ [hi8 (sum16 (requestBody s)), lo8 (sum16 (requestBody s))]) := by
  simp [requestFrame, frameBytes, requestBody]

theorem requestFrame_length {s : State} (hpar : s.n ≤ s.par.length) : (requestFrame s).length = 12 + s.n := by
  simp [requestFrame, hpar]

/-- R304: from offset 6 on a request's frame is its summed part and the checksum. -/
theorem requestFrame_getElem?_add_six (s : State) (k : Nat) :
    (requestFrame s)[6 + k]? =
      (requestBody s ++ [hi8 (sum16 (requestBody s)), lo8 (sum16 (requestBody s))])[k]? := by
  rw [requestFrame_eq, List.getElem?_append_right (Nat.le_add_right 6 k)]
  exact congrArg _ (Nat.add_sub_cancel_left 6 k)

/-- R402: the six bytes before the summed part are the marker and the broadcast address. -/
theorem frameByte_marker_address (s : State) {i : Nat} (hi : i < 6) : frameByte s i = (requestFrame s)[i]? := by
  rw [requestFrame_eq, List.getElem?_append_left hi]
  match i with
  | 0 | 1 | 2 | 3 | 4 | 5 => rfl

/-- R402: behind the summed part the framer sends its running checksum, high byte first. -/
theorem frameByte_checksum (s : State) {j : Nat} (hj : j < 2) :
    frameByte s (6 + (4 + s.n + j)) = [hi8 s.txSum, lo8 s.txSum][j]? := by
  match j with
  | 0 | 1 =>
    simp (disch := omega) only [frameByte, if_neg, if_pos]
    rfl

/-- Settles O16: the six bytes of marker and address, then the summed part, then the checksum. -/
theorem framerByteIsEncodedByte : Obligations.FramerByteIsEncodedByte := by
  intro s i hpar hi hsum
  rcases Nat.lt_or_ge i 6 with hhead | hbody
  · exact frameByte_marker_address s hhead
  obtain ⟨k, rfl⟩ := Nat.exists_eq_add_of_le hbody
  have hlen := requestBody_length hpar
  rw [requestFrame_getElem?_add_six]
  rcases Nat.lt_or_ge k (4 + s.n) with hin | hcks
  · rw [frameByte_eq_requestBody hpar hin, List.getElem?_append_left (hlen ▸ hin)]
  · obtain ⟨j, rfl⟩ := Nat.exists_eq_add_of_le hcks
    rw [frameByte_checksum s (by omega), List.getElem?_append_right (by omega), hlen, Nat.add_sub_cancel_left,
      hsum (by omega)]

/-! ## What is on the wire is the frame (R404) -/

/-- R403: in `SENDING` the byte the framer stands at is the encoded frame's byte there. -/
theorem frameByte_txIdx_of_sending {s : State} (h : Inv s) (hst : s.st = .sending) :
    frameByte s s.txIdx = (requestFrame s)[s.txIdx]? := by
  obtain ⟨held, -, inside, sum, -⟩ := h.sending hst
  obtain ⟨hpar, -⟩ := requestHeld_bounds (.of_inv h) held
  refine framerByteIsEncodedByte s s.txIdx hpar inside fun hcks => ?_
  rw [sum, List.take_of_length_le (by rw [requestBody_length hpar]; omega)]

/-- R404: outside `SENDING` the whole frame is on the wire. -/
theorem sentSoFar_of_sent {base : List Byte} {t : State} (hst : t.st ≠ .sending)
    (sent : t.chanTx = base ++ requestFrame t) : SentSoFar base t :=
  ⟨fun hsending => absurd hsending hst, fun _ => sent, fun _ => sent⟩

/-- R404: in `SENDING` the bytes before `tx_idx` are on the wire. -/
theorem sentSoFar_of_sending {base : List Byte} {t : State} (hst : t.st = .sending)
    (sent : t.chanTx = base ++ (requestFrame t).take t.txIdx) : SentSoFar base t :=
  ⟨fun _ => sent, fun hst' => by simp [hst] at hst', fun hst' => by simp [hst] at hst'⟩

/-- R403, R504: an accepted byte is the frame's next byte, and the last one completes it. -/
theorem sentSoFar_acceptByte {base : List Byte} {s : State} {b : Byte} (h : Inv s) (hst : s.st = .sending)
    (byte : frameByte s s.txIdx = some b) (sent : s.chanTx = base ++ (requestFrame s).take s.txIdx) :
    SentSoFar base (acceptByte b s) := by
  obtain ⟨held, -⟩ := h.sending hst
  obtain ⟨hpar, -⟩ := requestHeld_bounds (.of_inv h) held
  have hnext : s.chanTx ++ [b] = base ++ (requestFrame s).take (s.txIdx + 1) := by
    rw [frameByte_txIdx_of_sending h hst] at byte
    rw [sent, List.take_add_one, byte, List.append_assoc, Option.toList_some]
  by_cases hlast : s.txIdx + 1 = 12 + s.n
  · refine sentSoFar_of_sent (by simp [hlast]) (hnext.trans ?_)
    rw [List.take_of_length_le (by rw [requestFrame_length hpar, hlast])]
    rfl
  · exact sentSoFar_of_sending (by simp [hlast, hst]) hnext

@[simp] theorem requestFrame_loadInput (s : State) : requestFrame (loadInput s) = requestFrame s := by
  simp [requestFrame]

/-- R117: the environment's moves put nothing on the wire. -/
theorem sentSoFar_loadInput {base : List Byte} {s : State} (sent : SentSoFar base s) :
    SentSoFar base (loadInput s) := by
  simpa [SentSoFar] using sent

@[simp] theorem requestFrame_storeByte (b : Byte) (q : List Byte) (s : State) :
    requestFrame (storeByte b q s) = requestFrame s := rfl

@[simp] theorem requestFrame_finishFields (f : FrameFields) (s : State) :
    requestFrame (finishFields f s) = requestFrame s := by
  simp [requestFrame, finishFields_frame f s]

/-- R404: every move without START keeps what is on the wire the frame sent so far. -/
theorem EngineMove.sentSoFar {base : List Byte} {s t : State} (hmove : EngineMove s t) (h : Inv s)
    (quiet : s.pins.start = false) (sent : SentSoFar base s) : SentSoFar base t := by
  have ⟨whileSending, whileAwaiting, _⟩ := sent
  cases hmove with
  | hold | stall | emptyPoll => exact sent
  | refuse _ start | latch _ _ start => simp [quiet] at start
  | send b st latched byte => exact sentSoFar_acceptByte h st byte (whileSending st)
  | timeout st => exact sentSoFar_of_sent (by simp) (whileAwaiting st)
  | store b q st => exact sentSoFar_of_sent (by simp [st]) (whileAwaiting st)
  | finish b q bytes f st => exact sentSoFar_of_sent (by simp) (by simpa using whileAwaiting st)

/-- Settles O17: the environment and every move of the engine keep it, and RESET is excluded. -/
theorem sentFrameInvariant : Obligations.SentFrameInvariant := by
  rintro base s t h ⟨noReset, noStart⟩ sent hstep
  rcases step_reset_or_move hstep with ⟨hreset, -⟩ | ⟨-, hmove⟩
  · simp [noReset] at hreset
  · exact hmove.sentSoFar (inv_loadInput h) noStart (sentSoFar_loadInput sent)

/-! ## An accepting channel gets the whole frame (R404, R504) -/

/-- R117: a step with an input left sees that input's pins. -/
theorem pins_loadInput {s : State} {d : StepInput} {rest : List StepInput} (hin : s.inputs = d :: rest) :
    (loadInput s).pins = d.pins := by
  simp [loadInput, hin]

theorem inputs_loadInput (s : State) : (loadInput s).inputs = s.inputs.tail := by
  unfold loadInput
  cases s.inputs <;> rfl

/-- R504: in `SENDING` a step whose channel accepts sends the byte the framer stands at. -/
theorem step_of_accepts {s : State} {d : StepInput} {rest : List StepInput} (h : Inv s) (hst : s.st = .sending)
    (hin : s.inputs = d :: rest) (accepts : Accepts d) :
    ∃ b, step s = .next (acceptByte b (loadInput s)) := by
  obtain ⟨held, -, inside, -⟩ := h.sending hst
  obtain ⟨hpar, -⟩ := requestHeld_bounds (.of_inv h) held
  obtain ⟨latched, -⟩ := held
  obtain ⟨noReset, noStart, accept⟩ := accepts
  have hpins := pins_loadInput hin
  obtain ⟨b, byte⟩ : ∃ b, (requestFrame s)[s.txIdx]? = some b :=
    ⟨_, List.getElem?_eq_getElem (by rwa [requestFrame_length hpar])⟩
  rw [← frameByte_txIdx_of_sending h hst] at byte
  refine ⟨b, (step_of_noStrobe h.catalog ⟨hpins ▸ noReset, hpins ▸ noStart⟩).trans ?_⟩
  rw [engineStep_of_sending (by simpa using hst)]
  simp [sendStep, latched, byte, hpins, accept]

/-- R404: over inputs that accept, an engine in `SENDING` sends the rest of its frame and enters `AWAITING`. -/
theorem runSteps_sends_frame {base : List Byte} (ds : List StepInput) :
    ∀ {s : State}, Inv s → s.st = .sending → s.inputs = ds → s.txIdx + ds.length = 12 + s.n →
      (∀ d ∈ ds, Accepts d) → SentSoFar base s →
      ∃ t, runSteps ds.length s = .next t ∧ t.st = .awaiting ∧ t.chanTx = base ++ requestFrame s := by
  induction ds with
  | nil =>
    intro s h hst _ hlen
    obtain ⟨-, -, inside, -⟩ := h.sending hst
    simp only [List.length_nil] at hlen
    omega
  | cons d rest ih =>
    intro s h hst hin hlen accepts sent
    obtain ⟨acceptsHead, acceptsRest⟩ := List.forall_mem_cons.mp accepts
    obtain ⟨b, hstep⟩ := step_of_accepts h hst hin acceptsHead
    obtain ⟨noReset, noStart, -⟩ := acceptsHead
    have hpins := pins_loadInput hin
    have sent' : SentSoFar base (acceptByte b (loadInput s)) :=
      sentFrameInvariant base s _ h ⟨hpins ▸ noReset, hpins ▸ noStart⟩ sent hstep
    have hframe : requestFrame (acceptByte b (loadInput s)) = requestFrame s := requestFrame_loadInput s
    rw [List.length_cons, runSteps_succ_of_next hstep]
    cases rest with
    | nil =>
      have hst' : (acceptByte b (loadInput s)).st = .awaiting := by simpa using fun hne => absurd hlen hne
      exact ⟨_, rfl, hst', hframe ▸ sent'.2.1 hst'⟩
    | cons d' rest' =>
      have hmore : s.txIdx + 1 ≠ 12 + s.n := by simp only [List.length_cons] at hlen; omega
      rw [← hframe]
      exact ih (invKeptByEveryStep s _ h hstep) (by simp [hmore, hst]) (by simp [inputs_loadInput, hin])
        (by simpa [Nat.add_assoc, Nat.add_comm 1] using hlen) acceptsRest sent'

/-- Settles O18: nothing of the frame is on the wire at its start, all of it after `12 + n` accepting steps. -/
theorem acceptingChannelSendsEncodedFrame : Obligations.AcceptingChannelSendsEncodedFrame := by
  intro s ds h hst hidx hin hlen accepts
  obtain ⟨⟨-, -, encodable⟩, -⟩ := h.sending hst
  have hfits : (s.par.take s.n).length ≤ maxParams := (List.length_take_le _ _).trans encodable
  obtain ⟨t, hrun, hawaiting, hsent⟩ := runSteps_sends_frame (base := s.chanTx) ds h hst hin (by omega) accepts
    (sentSoFar_of_sending hst (by simp [hidx]))
  exact ⟨t, requestFrame s, hlen ▸ hrun, hawaiting, if_pos hfits, hsent⟩

/-! ## The bytes received (R410, R506) -/

/-- R410, R506: the receiver has taken exactly `bytes`: they lie in the buffer in order, and `rx_sum` is the sum of
those at offsets `6..E-3`. -/
def Received (bytes : List Byte) (s : State) : Prop :=
  s.rxCnt = bytes.length ∧ rxReadBytes s 0 bytes.length = some bytes ∧
    s.rxSum = sum16 ((bytes.take (s.expLen - 2)).drop 6)

/-- R410, R502: a receiver at the start of its reply has taken nothing. -/
theorem received_nil {s : State} (hcnt : s.rxCnt = 0) (hsum : s.rxSum = 0) : Received [] s :=
  ⟨hcnt, rfl, by simpa using hsum⟩

/-- R506: a byte stored joins the bytes taken. -/
theorem Received.storeByte {bytes : List Byte} {s : State} (h : Received bytes s) (b : Byte) (q : List Byte)
    (hlong : 3 ≤ s.expLen) : Received (bytes ++ [b]) (storeByte b q s) := by
  obtain ⟨hcnt, hread, hsum⟩ := h
  refine ⟨by simp [hcnt], ?_, storeByte_rxSum_eq_sum16 b q hlong hcnt.symm hsum⟩
  rw [List.length_append, List.length_singleton, ← hcnt]
  exact rxReadBytes_storeByte b q s (hcnt ▸ hread)

/-- R506: bytes stored one after another join the bytes taken, in order. -/
theorem Received.takeBytes (bs : List Byte) : ∀ {bytes : List Byte} {s : State}, Received bytes s → 3 ≤ s.expLen →
    Received (bytes ++ bs) (takeBytes bs s) := by
  induction bs with
  | nil => intro bytes s h _; rwa [List.append_nil]
  | cons b bs ih =>
    intro bytes s h hlong
    rw [List.append_cons]
    exact ih (h.storeByte b s.chanRx hlong) hlong

@[simp] theorem takeBytes_expLen (bs : List Byte) (s : State) : (takeBytes bs s).expLen = s.expLen := by
  induction bs generalizing s with
  | nil => rfl
  | cons b bs ih => exact ih _

@[simp] theorem takeBytes_cfg (bs : List Byte) (s : State) : (takeBytes bs s).cfg = s.cfg := by
  induction bs generalizing s with
  | nil => rfl
  | cons b bs ih => exact ih _

/-- Settles O21, from a receiver that has taken nothing. -/
theorem receivedBytesAreSummed : Obligations.ReceivedBytesAreSummed := by
  intro s bs hcnt hsum hlong _
  obtain ⟨hcnt', hread, hsum'⟩ := (received_nil hcnt hsum).takeBytes bs (by omega)
  exact ⟨hcnt', hread, by simpa using hsum'⟩

/-- R11: part of a read is a read of its own. -/
theorem rxReadBytes_part {s : State} {a k j m : Nat} {bs : List Byte} (h : rxReadBytes s a k = some bs)
    (hfit : j + m ≤ k) : rxReadBytes s (a + j) m = some ((bs.drop j).take m) := by
  have hlen := rxReadBytes_length h
  induction m with
  | zero => simp
  | succ m ih =>
    have hj : j + m < bs.length := by omega
    have hbyte : rxRead s (a + j + m) = some bs[j + m] := by
      rw [Nat.add_assoc, rxReadBytes_get h (by omega), List.getElem?_eq_getElem hj]
    rw [rxReadBytes_snoc (ih (by omega)) hbyte, List.take_add_one, List.getElem?_drop, List.getElem?_eq_getElem hj]
    rfl

/-! ## Decode's checks (R420 to R424) -/

section Checks

variable {verify : Bool} {expLen : Nat} {computed : U16} {f : FrameFields}

/-- R421: the checksum check, where it is on, is the first. -/
theorem firstFailure_of_checksum_ne (on : verify = true) (hne : computed ≠ f.cks) :
    firstFailure verify expLen computed f = some .checksumMismatch := by
  simp [firstFailure, on, hne]

/-- R422 to R424: past the checksum check the marker, the packet type and the length are checked in turn. -/
theorem firstFailure_of_checksum_passed (passed : verify = true → computed = f.cks) :
    firstFailure verify expLen computed f =
      if f.marker ≠ startMarker then some .badStartMarker
      else if f.ptype ≠ ptAck then some .unexpectedPacketType
      else if f.len.toNat ≠ expLen - hdrLen then some .lengthMismatch
      else none := by
  have hcks : (verify && computed != f.cks) = false := by
    cases verify with
    | false => rfl
    | true => simp [passed rfl]
  simp only [firstFailure, hcks, Bool.false_eq_true, if_false]

theorem firstFailure_of_marker_ne (passed : verify = true → computed = f.cks) (hm : f.marker ≠ startMarker) :
    firstFailure verify expLen computed f = some .badStartMarker := by
  rw [firstFailure_of_checksum_passed passed, if_pos hm]

theorem firstFailure_of_ptype_ne (passed : verify = true → computed = f.cks) (hm : f.marker = startMarker)
    (hp : f.ptype ≠ ptAck) : firstFailure verify expLen computed f = some .unexpectedPacketType := by
  rw [firstFailure_of_checksum_passed passed, if_neg (not_not_intro hm), if_pos hp]

theorem firstFailure_of_len_ne (passed : verify = true → computed = f.cks) (hm : f.marker = startMarker)
    (hp : f.ptype = ptAck) (hl : f.len.toNat ≠ expLen - hdrLen) :
    firstFailure verify expLen computed f = some .lengthMismatch := by
  rw [firstFailure_of_checksum_passed passed, if_neg (not_not_intro hm), if_neg (not_not_intro hp), if_pos hl]

theorem firstFailure_none (passed : verify = true → computed = f.cks) (hm : f.marker = startMarker)
    (hp : f.ptype = ptAck) (hl : f.len.toNat = expLen - hdrLen) : firstFailure verify expLen computed f = none := by
  rw [firstFailure_of_checksum_passed passed, if_neg (not_not_intro hm), if_neg (not_not_intro hp),
    if_neg (not_not_intro hl)]

end Checks

/-- R420, R428: the exposures, whatever decode returns. -/
theorem finishFields_exposes (f : FrameFields) (s : State) :
    (finishFields f s).rxCksField = f.cks ∧ (finishFields f s).rxCksCalc = s.rxSum ∧
      (finishFields f s).rxAddr = f.addr := by
  rcases finishFields_cases f s with ⟨r, -, h⟩ | ⟨-, -, h⟩ | ⟨-, -, h⟩ <;> rw [h] <;> exact ⟨rfl, rfl, rfl⟩

/-- R420, R602: the first failing check names the reason. -/
theorem finishFields_of_failure {f : FrameFields} {s : State} {r : MalformedReason}
    (h : firstFailure s.cfg.rxVerifyChecksum s.expLen s.rxSum f = some r) :
    (finishFields f s).outcome = .malformed ∧ (finishFields f s).detail = r.toByte ∧
      (finishFields f s).payloadLen = s.payloadLen := by
  rw [finishFields, h]
  exact ⟨rfl, rfl, rfl⟩

/-- R550: a reply that passes every check is interpreted by its confirmation byte. -/
theorem finishFields_of_passed {f : FrameFields} {s : State}
    (h : firstFailure s.cfg.rxVerifyChecksum s.expLen s.rxSum f = none) :
    (f.code = 0x00 → (finishFields f s).outcome = .ok ∧ (finishFields f s).detail = 0x00 ∧
      (finishFields f s).payloadLen = s.expLen - 12) ∧
    (f.code ≠ 0x00 → (finishFields f s).outcome = .deviceRejected ∧ (finishFields f s).detail = f.code ∧
      (finishFields f s).payloadLen = 0) := by
  rw [finishFields, h]
  refine ⟨fun hok => ?_, fun hrej => ?_⟩
  · rw [hok]; exact ⟨rfl, rfl, rfl⟩
  · have hne : ¬ f.code = confOk := hrej
    simp [interpretReply, hne]

/-- Settles O26: neither the checks nor the interpretation reads the address. -/
theorem addressIsNotChecked : Obligations.AddressIsNotChecked := by
  intro f addr s
  have hchecks : firstFailure s.cfg.rxVerifyChecksum s.expLen s.rxSum { f with addr := addr } =
      firstFailure s.cfg.rxVerifyChecksum s.expLen s.rxSum f := rfl
  simp only [finishFields, hchecks]
  cases firstFailure s.cfg.rxVerifyChecksum s.expLen s.rxSum f with
  | some r => rfl
  | none =>
    show interpretReply f.code (exposeReply f.cks addr s) =
      { interpretReply f.code (exposeReply f.cks f.addr s) with rxAddr := addr }
    unfold interpretReply
    split <;> rfl

/-! ## The bytes of a reply (R411) -/

/-- R300: the bytes of a frame of at least 12: two of the marker, four of the address, the packet type, two of the
length field, the confirmation byte, the payload and two of the checksum. -/
theorem exists_reply_bytes {bytes : List Byte} (h : 12 ≤ bytes.length) :
    ∃ m1 m0 a3 a2 a1 a0 pt l1 l0 conf payload k1 k0,
      bytes = [m1, m0] ++ [a3, a2, a1, a0] ++ [pt] ++ [l1, l0] ++ [conf] ++ payload ++ [k1, k0] := by
  match bytes with
  | m1 :: m0 :: a3 :: a2 :: a1 :: a0 :: pt :: l1 :: l0 :: conf :: tail =>
    simp only [List.length_cons] at h
    obtain ⟨k1, k0, hk⟩ := List.length_eq_two.mp
      (show (tail.drop (tail.length - 2)).length = 2 by rw [List.length_drop]; omega)
    refine ⟨m1, m0, a3, a2, a1, a0, pt, l1, l0, conf, tail.take (tail.length - 2), k1, k0, ?_⟩
    rw [← hk]
    simp

theorem beNat_quad (a b c d : Byte) : beNat [a, b, c, d] = (be32 a b c d).toNat := by
  simp [beNat, be32_toNat]

/-- R300: the start marker is the bytes `EF 01`. -/
theorem be16_eq_startMarker_iff (a b : Byte) : be16 a b = startMarker ↔ [a, b] = [0xEF, 0x01] := by
  refine ⟨fun h => ?_, fun h => ?_⟩
  · obtain ⟨rfl, rfl⟩ := eq_of_be16_eq h
    rfl
  · cases h
    rfl

/-- R411: `parse` of at least 12 bytes reads each field off the bytes that carry it. -/
theorem parseFrame_of_bytes {bytes : List Byte} (h : 12 ≤ bytes.length) :
    ∃ (f : FrameFields) (m a p l payload k : List Byte), parseFrame bytes = some f ∧
      bytes = m ++ a ++ p ++ l ++ [f.code] ++ payload ++ k ∧
      (m.length = 2 ∧ a.length = 4 ∧ p.length = 1 ∧ l.length = 2 ∧ k.length = 2) ∧
      (f.marker = startMarker ↔ m = [0xEF, 0x01]) ∧ f.addr.toNat = beNat a ∧ (f.ptype = ptAck ↔ p = [0x07]) ∧
      f.len.toNat = beNat l ∧ f.cks.toNat = beNat k := by
  obtain ⟨m1, m0, a3, a2, a1, a0, pt, l1, l0, conf, payload, k1, k0, rfl⟩ := exists_reply_bytes h
  refine ⟨⟨be16 m1 m0, be32 a3 a2 a1 a0, pt, be16 l1 l0, conf, payload, be16 k1 k0⟩, [m1, m0], [a3, a2, a1, a0], [pt],
    [l1, l0], payload, [k1, k0], by simp [parseFrame], rfl, ⟨rfl, rfl, rfl, rfl, rfl⟩, be16_eq_startMarker_iff m1 m0,
    (beNat_quad ..).symm, ?_, (beNat_pair ..).symm, (beNat_pair ..).symm⟩
  exact ⟨congrArg ([·]), List.head_eq_of_cons_eq⟩

/-- Settles O23: the fields are read off the bytes, and each clause is one answer of `firstFailure`. -/
theorem decodeChecksInOrder : Obligations.DecodeChecksInOrder := by
  intro s bytes hlong hread
  obtain ⟨f, m, a, p, l, payload, k, hparse, hbytes, ⟨hm, ha, hp, hl, hk⟩, hmark, haddr, hptype, hlenf, hcks⟩ :=
    parseFrame_of_bytes (rxReadBytes_length hread ▸ hlong)
  obtain ⟨hfield, hcalc, hrxAddr⟩ := finishFields_exposes f s
  refine ⟨finishFields f s, m, a, p, l, f.code, payload, k, finish_of_bytes hread hparse, hbytes, hm, ha, hp, hl, hk,
    finishFields_st f s, hfield ▸ hcks, hcalc, hrxAddr ▸ haddr, ?_, ?_⟩ <;> rw [← hcks]
  · rintro ⟨on, hne⟩
    exact finishFields_of_failure (firstFailure_of_checksum_ne on (mt (congrArg BitVec.toNat) hne))
  intro equal
  have passed : s.cfg.rxVerifyChecksum = true → s.rxSum = f.cks := fun on => BitVec.eq_of_toNat_eq (equal on)
  rw [← hlenf, ne_eq m, ne_eq p, ← hmark, ← hptype]
  refine ⟨fun badMarker => ?_, fun marker badType => ?_, fun marker ack badLen => ?_, fun marker ack len => ?_⟩
  · exact finishFields_of_failure (firstFailure_of_marker_ne passed badMarker)
  · exact finishFields_of_failure (firstFailure_of_ptype_ne passed marker badType)
  · exact finishFields_of_failure (firstFailure_of_len_ne passed marker ack badLen)
  · exact finishFields_of_passed (firstFailure_none passed marker ack len)

/-! ## The round trip (R429) -/

/-- R411: the fields of an encoded frame. -/
def frameFields (t o : Byte) (p : List Byte) : FrameFields :=
  ⟨startMarker, addressTx, t, lenField p.length, o, p, sum16 (frameBody t o p)⟩

theorem parseFrame_eq_frameFields (t o : Byte) (p : List Byte) :
    parseFrame (frameBytes t o p) = some (frameFields t o p) :=
  parseFrame_frameBytes t o p

/-- R304: the summed part of an encoded frame is its bytes at offsets `6..9+N`. -/
theorem frameBytes_summed (t o : Byte) (p : List Byte) :
    ((frameBytes t o p).take (10 + p.length)).drop 6 = frameBody t o p := by
  have hlen : ([hi8 startMarker, lo8 startMarker] ++ bytes32 addressTx ++ frameBody t o p).length = 10 + p.length := by
    simp [bytes32_eq]; omega
  rw [frameBytes, List.take_left' hlen]
  rfl

/-- R300: the parameters of an encoded frame are its bytes at offsets `10..9+N`. -/
theorem frameBytes_params (t o : Byte) (p : List Byte) : ((frameBytes t o p).drop 10).take p.length = p := by
  rw [frameBytes, List.append_assoc]
  exact List.take_left

/-- R429: an encoded frame received as the reply parses to its fields, its carried checksum is the computed one, and
its parameters lie in the buffer from offset 10 on. -/
theorem finish_encoded {s : State} (t o : Byte) {p : List Byte} (hlen : s.expLen = 12 + p.length)
    (hcnt : s.rxCnt = 0) (hsum : s.rxSum = 0) :
    finish (takeBytes (frameBytes t o p) s) =
        .next (finishFields (frameFields t o p) (takeBytes (frameBytes t o p) s)) ∧
      (takeBytes (frameBytes t o p) s).rxSum = (frameFields t o p).cks ∧
      rxReadBytes (takeBytes (frameBytes t o p) s) 10 p.length = some p := by
  obtain ⟨-, hread, hsum'⟩ := (received_nil hcnt hsum).takeBytes (frameBytes t o p) (by omega)
  rw [List.nil_append, frameBytes_length] at hread
  refine ⟨finish_of_bytes (by rwa [takeBytes_expLen, hlen]) (parseFrame_eq_frameFields t o p), ?_, ?_⟩
  · rw [hsum', takeBytes_expLen, hlen, List.nil_append, show 12 + p.length - 2 = 10 + p.length by omega,
      frameBytes_summed]
    rfl
  · have hpart := rxReadBytes_part hread (j := 10) (m := p.length) (by omega)
    rwa [frameBytes_params, Nat.zero_add] at hpart

/-- Settles O43: `parse` gives back the fields, and with equal checksums only the packet type can fail a check. -/
theorem frameRoundTrip : Obligations.FrameRoundTrip := by
  refine ⟨fun t o p bytes henc => ?_, fun s t o p bytes henc _ hlen hcnt hsum => ?_⟩
  · obtain ⟨hfits, rfl⟩ := encodeFrame_eq_some.mp henc
    exact ⟨_, parseFrame_eq_frameFields t o p, rfl, rfl, rfl, lenField_toNat hfits, rfl, rfl, rfl⟩
  obtain ⟨hfits, rfl⟩ := encodeFrame_eq_some.mp henc
  obtain ⟨hfinish, hcks, hparams⟩ := finish_encoded t o hlen hcnt hsum
  refine ⟨fun hack => ⟨_, hfinish, finishFields_st _ _, ?_⟩, fun hother => ⟨_, hfinish, finishFields_st _ _, ?_⟩⟩
  · have hl : (frameFields t o p).len.toNat = (takeBytes (frameBytes t o p) s).expLen - hdrLen := by
      rw [takeBytes_expLen, hlen]
      exact (lenField_toNat hfits).trans (by simp only [hdrLen]; omega)
    obtain ⟨hok, hrej⟩ := finishFields_of_passed (firstFailure_none (fun _ => hcks) rfl hack hl)
    rw [takeBytes_expLen, hlen, Nat.add_sub_cancel_left] at hok
    refine ⟨hok, fun ho => ?_, by rwa [rxReadBytes_finishFields]⟩
    obtain ⟨hout, hdetail, -⟩ := hrej ho
    exact ⟨hout, hdetail⟩
  · obtain ⟨hout, hdetail, -⟩ := finishFields_of_failure (firstFailure_of_ptype_ne (fun _ => hcks) rfl hother)
    obtain ⟨hfield, hcalc, -⟩ := finishFields_exposes (frameFields t o p) (takeBytes (frameBytes t o p) s)
    exact ⟨hout, hdetail, by rw [hfield, hcalc, hcks]⟩

/-! ## The acknowledgements (R427) -/

/-- R507: executing an acknowledgement is `finish` on the fields it stands for, where its reply is due. -/
theorem exec_reply {i : Instr} (hi : i.isReply = true) (s : State) :
    ∃ f, exec i s = finishReply i.command i.frameLength f s := by
  cases i with
  | verifyPassword _ _ _ _ | checkFirmware | configLed _ _ _ _ => cases hi
  | ackVerifyPassword _ _ _ | ackCheckFirmware _ _ _ _ | ackConfigLed _ _ _ => exact ⟨_, rfl⟩

/-- Settles O8: a reply that is due changes what `finish` changes, one that is not changes nothing. -/
theorem acknowledgementFrame : Obligations.AcknowledgementFrame := by
  intro s t i hi hexec
  obtain ⟨f, hf⟩ := exec_reply hi s
  rcases finishReply_next (hf ▸ hexec) with ⟨-, rfl⟩ | ⟨-, rfl⟩
  · simp [RequestKept, CountersKept, BufferKept, EnvKept, finishFields_frame f s]
  · simp [RequestKept, CountersKept, BufferKept, EnvKept]

/-- Settles O9: an acknowledgement looks at the buffer only where its reply is due. -/
theorem acknowledgementNotDueChangesNothing : Obligations.AcknowledgementNotDueChangesNothing := by
  intro s i hi hnot
  obtain ⟨f, hf⟩ := exec_reply hi s
  exact hf.trans (if_neg (mt replyDue_iff.mp hnot))

end Sys2Proof.Proofs
end

section
/-! PROOFS. The statements of 41_command_catalog.md: what a well-formed catalog is, the default catalog, and the
exchange that each of the three commands begins. -/

namespace Sys2Proof.Proofs

open Sys2Proof.Machine Sys2Proof.Safety Sys2Proof.Claims

/-! ## Well-formed catalogs (R454) -/

/-- R116: looking an opcode up finds nothing exactly where no entry has it. -/
theorem lookupCatalog_eq_none_iff {c : List CatalogEntry} {o : Byte} :
    lookupCatalog c o = none ↔ ∀ e ∈ c, e.opcode ≠ o := by
  induction c with
  | nil => simp [lookupCatalog]
  | cons d rest ih => by_cases hd : d.opcode = o <;> simp [lookupCatalog, hd, ih]

theorem opcodesDistinct_iff {c : List CatalogEntry} :
    opcodesDistinct c = true ↔ c.Pairwise (fun a b => a.opcode ≠ b.opcode) := by
  induction c with
  | nil => simp [opcodesDistinct]
  | cons d rest ih => simp [opcodesDistinct, ih, lookupCatalog_eq_none_iff, ne_comm]

theorem catalogWellFormed_iff {c : Config} :
    catalogWellFormed c = true ↔
      (∀ e ∈ c.catalog, e.n ≤ c.pMax ∧ minFrame ≤ e.expLen ∧ e.expLen ≤ c.rMax) ∧
        c.catalog.Pairwise (fun a b => a.opcode ≠ b.opcode) := by
  simp [catalogWellFormed, opcodesDistinct_iff, and_assoc]

theorem step_of_illFormed {s : State} (h : catalogWellFormed s.cfg = false) : step s = .refused .illFormedCatalog := by
  simp [step, h]

/-- Settles O36, from the meaning of the check and the guard of `step`. -/
theorem catalogWellFormedMeaning : Obligations.CatalogWellFormedMeaning :=
  ⟨fun _ => catalogWellFormed_iff, catalogWellFormed_default, fun _ => step_of_illFormed⟩

/-! ## The default catalog (R450) -/

/-- R116, R454: where no opcode has two entries, a lookup finds exactly the entry of the opcode. -/
theorem lookupCatalog_eq_some_iff {c : List CatalogEntry} (hd : c.Pairwise (fun a b => a.opcode ≠ b.opcode))
    {o : Byte} {e : CatalogEntry} : lookupCatalog c o = some e ↔ e ∈ c ∧ e.opcode = o := by
  refine ⟨lookupCatalog_some, fun ⟨hmem, hop⟩ => ?_⟩
  cases hl : lookupCatalog c o with
  | none => exact absurd hop (lookupCatalog_eq_none_iff.mp hl e hmem)
  | some d =>
    obtain ⟨hmem', hop'⟩ := lookupCatalog_some hl
    rw [List.inj_on_of_nodup_map (List.pairwise_map.mpr hd) hmem' hmem (hop'.trans hop.symm)]

theorem mem_defaultCatalog {e : CatalogEntry} :
    e ∈ Config.default.catalog ↔ e = ⟨0x13, 4, 12⟩ ∨ e = ⟨0x3A, 0, 44⟩ ∨ e = ⟨0x35, 4, 12⟩ := by
  simp [Config.default, defaultCatalog, opVerifyPassword, opCheckFirmware, opConfigLed]

/-- Settles O37: the default catalog is well-formed, so its lookups are its entries. -/
theorem defaultCatalogEntries : Obligations.DefaultCatalogEntries := by
  intro o e
  rw [lookupCatalog_eq_some_iff (catalogWellFormed_iff.mp catalogWellFormed_default).2, mem_defaultCatalog]
  constructor
  · rintro ⟨rfl | rfl | rfl, rfl⟩ <;> simp
  · rintro (⟨rfl, rfl⟩ | ⟨rfl, rfl⟩ | ⟨rfl, rfl⟩) <;> simp

/-! ## The commands (R451 to R453, R502) -/

/-- R501, R502: clearing the results and latching a request of enough bytes begins its exchange. -/
theorem begun_latchRequest (o : Byte) {e : CatalogEntry} {ps : List Byte} (s : State) (hp : e.n ≤ ps.length) :
    Begun o e ps s (latchRequest o e ps (clearResults s)) := by
  have hlen : (ps.take e.n).length = e.n := List.length_take_of_le hp
  have htake : (ps.take e.n ++ s.par.drop e.n).take e.n = ps.take e.n := List.take_left' hlen
  have hdrop : (ps.take e.n ++ s.par.drop e.n).drop e.n = s.par.drop e.n := List.drop_left' hlen
  simp [Begun, busy, doneFlag, ResultsCleared, BufferKept, EnvKept, htake, hdrop]

/-- R502: a request for an opcode of the catalog, with enough parameter bytes, begins its exchange. -/
theorem startRequest_begun {o : Byte} {ps : List Byte} {s : State} {e : CatalogEntry} (hb : busy s = false)
    (hl : lookupCatalog s.cfg.catalog o = some e) (hn : e.n ≤ maxParams) (hp : e.n ≤ ps.length) :
    ∃ t, startRequest o ps s = .next t ∧ Begun o e ps s t :=
  ⟨_, startRequest_begins hb hl hn hp, begun_latchRequest o s hp⟩

/-- Settles O1: each command is the request of its opcode with its operand bytes. -/
theorem commandsBeginExchange : Obligations.CommandsBeginExchange := by
  intro s p0 p1 p2 p3 e hb
  refine ⟨fun hl hp => ?verifyPassword, fun hl hp => ?checkFirmware, fun hl hp => ?configLed⟩
  case verifyPassword | configLed => exact startRequest_begun hb hl (hp.trans (by decide)) hp
  case checkFirmware => exact startRequest_begun hb hl (by simp [hp]) hp.le

end Sys2Proof.Proofs
end

section
/-! PROOFS. The statements of 42_transport_session.md: an accepted START begins its exchange or is refused, the send step,
the step in `AWAITING` and the end of the wait, and the sequencer's transitions. -/

namespace Sys2Proof.Proofs

open Sys2Proof.Machine Sys2Proof.Safety Sys2Proof.Claims

/-! ## START (R500 to R503) -/

/-- R500, R501: a START outside the busy states is looked at at once. -/
theorem step_of_start {s : State} (hw : catalogWellFormed s.cfg = true) (hb : busy s = false)
    (hr : (loadInput s).pins.reset = false) (hs : (loadInput s).pins.start = true) :
    step s = startStep (loadInput s) := by
  have hb' : busy (loadInput s) = false := by simpa using hb
  simp [step, clockedStep, hw, hr, hb, hs, engineStep_of_not_busy hb']

/-- R501 to R503: such a step is the request on the pins. -/
theorem step_eq_startRequest {s : State} (hw : catalogWellFormed s.cfg = true) (hb : busy s = false)
    (hr : (loadInput s).pins.reset = false) (hs : (loadInput s).pins.start = true) :
    step s = startRequest (loadInput s).pins.reqOpcode (loadInput s).pins.reqParam (loadInput s) :=
  (step_of_start hw hb hr hs).trans (startStep_eq_startRequest _)

/-- Settles O2: the step is the request on the pins, which begins. -/
theorem startBeginsExchange : Obligations.StartBeginsExchange := by
  intro s e hw hb hr hs hentry hn hp
  rw [step_eq_startRequest hw hb hr hs]
  exact startRequest_begun (by simpa using hb) (by simpa using hentry) hn hp

/-- R503: clearing the results and refusing writes the result registers and `st` alone. -/
theorem requestRefused_refuseRequest (s : State) : RequestRefused s (refuseRequest (clearResults s)) := by
  simp [RequestRefused, refuseRequest, RequestKept, CountersKept, BufferKept, EnvKept]

/-- R503: a request for an opcode outside the catalog is refused. -/
theorem startRequest_refused {o : Byte} {s : State} (ps : List Byte) (hb : busy s = false)
    (hl : lookupCatalog s.cfg.catalog o = none) : ∃ t, startRequest o ps s = .next t ∧ RequestRefused s t :=
  ⟨_, startRequest_refuses hb hl, requestRefused_refuseRequest s⟩

/-- R107, R503: STATUS of a refused request: `DET` 0x01, `OUT` 5, `DONE`. -/
theorem status_of_requestRefused {s t : State} (h : RequestRefused s t) : status t = 0x015B := by
  obtain ⟨hst, hout, hdet, -⟩ := h
  simp [status, doneFlag, busy, hst, hout, hdet, OutcomeName.code, SeqState.code]

/-- Settles O3: each command, and a START on the pins, is the request of its opcode. -/
theorem unknownOpcodeIsRefused : Obligations.UnknownOpcodeIsRefused := by
  refine ⟨fun s p0 p1 p2 p3 hb => ⟨startRequest_refused _ hb, startRequest_refused _ hb, startRequest_refused _ hb⟩,
    fun s hw hb hr hs hl => ?_⟩
  obtain ⟨t, hstart, refused⟩ := startRequest_refused (s := loadInput s) (loadInput s).pins.reqParam
    (by simpa using hb) (by simpa using hl)
  exact ⟨t, (step_eq_startRequest hw hb hr hs).trans hstart, refused, status_of_requestRefused refused⟩

/-- R310: executing a command is the request of its opcode with its operand bytes. -/
theorem exec_command {i : Instr} (hi : i.isReply = false) (s : State) :
    ∃ ps, exec i s = startRequest i.command ps s := by
  cases i with
  | verifyPassword _ _ _ _ | checkFirmware | configLed _ _ _ _ => exact ⟨_, rfl⟩
  | ackVerifyPassword _ _ _ | ackCheckFirmware _ _ _ _ | ackConfigLed _ _ _ => cases hi

/-- Settles O6: a command that answers a next state refused its request or began its exchange. -/
theorem commandFrame : Obligations.CommandFrame := by
  intro s t i hi hexec
  obtain ⟨ps, hps⟩ := exec_command hi s
  obtain ⟨-, ⟨-, rfl⟩ | ⟨e, -, -, hp, rfl⟩⟩ := startRequest_next (hps ▸ hexec)
  · obtain ⟨hst, -, -, hpay, hfield, hcalc, haddr, request, counters, buffer, env⟩ := requestRefused_refuseRequest s
    exact ⟨buffer, env, hpay, hfield, hcalc, haddr, fun h => (nomatch h), fun _ => ⟨request, counters⟩, .inr hst⟩
  · obtain ⟨hst, -, -, -, -, -, -, -, hpar, -, -, -, -, -, ⟨-, -, hpay, hfield, hcalc, haddr⟩, buffer, env⟩ :=
      begun_latchRequest i.command s hp
    exact ⟨buffer, env, hpay, hfield, hcalc, haddr, fun _ => hpar, fun h => (nomatch h), .inl hst⟩

/-! ## Sending (R504, R514) -/

/-- R504: with the request held, the channel's answer to the presented byte decides the send step. -/
theorem step_of_sendingNow {s : State} {b : Byte} (h : SendingNow s) (byte : frameByte s s.txIdx = some b) :
    step s = if (loadInput s).pins.txAccept then .next (acceptByte b (loadInput s)) else .next (loadInput s) := by
  obtain ⟨hw, hns, hst, latched⟩ := h
  rw [step_of_noStrobe hw hns, engineStep_of_sending (by simpa using hst)]
  simp [sendStep, latched, byte]

/-- R10: the sum mod 65536. -/
theorem addSum_toNat (acc : U16) (b : Byte) : (addSum acc b).toNat = (acc.toNat + b.toNat) % 65536 := by
  simp [addSum]

/-- Settles O15, from what an accepted byte does to each register. -/
theorem sendStep_spec : Obligations.SendStep := by
  intro s b h byte
  have hstep := step_of_sendingNow h byte
  obtain ⟨-, -, hst, -⟩ := h
  refine ⟨fun refuses => by simp [hstep, refuses], fun accepts => ⟨acceptByte b (loadInput s), by simp [hstep, accepts],
    by simp, by simp, fun summed => ?_, fun outside => ?_, fun last => by simp [last], fun more => by simp [more, hst],
    by simp [RequestKept], by simp [ResultsKept], by simp [BufferKept], by simp⟩⟩
  · simp [summed, addSum_toNat]
  · have notInRange : ¬ (6 ≤ s.txIdx ∧ s.txIdx ≤ 9 + s.n) := by omega
    simp [notInRange]

/-- Settles O19: the send step accepts or stalls, and neither looks at the clock or writes a result. -/
theorem sendingIgnoresDeadline : Obligations.SendingIgnoresDeadline := by
  intro s t hns hst hstep
  have hst' : (loadInput s).st = .sending := by simpa using hst
  obtain ⟨hw, -⟩ := step_next hstep
  rw [step_of_noStrobe hw hns, engineStep_of_sending hst'] at hstep
  obtain ⟨-, b, -, ⟨-, rfl⟩ | ⟨-, rfl⟩⟩ := sendStep_next hstep
  · refine ⟨?_, by simp [ResultsKept]⟩
    rw [acceptByte_st, hst']
    split <;> simp
  · exact ⟨.inl hst', by simp [ResultsKept]⟩

/-! ## One step in `AWAITING` (R505 to R508) -/

/-- R505: with the request held, a step in `AWAITING` checks the deadline and polls. -/
theorem step_of_awaitingNow {s : State} (h : AwaitingNow s) : step s = awaitStep (loadInput s) := by
  obtain ⟨hw, hns, hst, -⟩ := h
  rw [step_of_noStrobe hw hns, engineStep_of_awaiting (by simpa using hst)]

/-- R505: at or past the deadline the step is a TIMEOUT. -/
theorem step_of_due {s : State} (h : AwaitingNow s) (due : s.deadline ≤ (loadInput s).now) :
    step s = .next (raiseOutcome .timeout (detailOfCount s.rxCnt) (loadInput s)) := by
  have ⟨_, _, _, latched⟩ := h
  simp [step_of_awaitingNow h, awaitStep, latched, due]

/-- R505, R506: before the deadline the step is a poll. -/
theorem step_of_ahead {s : State} (h : AwaitingNow s) (ahead : (loadInput s).now < s.deadline) :
    step s = pollStep (loadInput s) := by
  have ⟨_, _, _, latched⟩ := h
  simp [step_of_awaitingNow h, awaitStep, latched, Nat.not_le.mpr ahead]

/-- R508: an empty poll. -/
theorem pollStep_of_empty {s : State} (empty : s.chanRx = []) : pollStep s = .next s := by
  simp [pollStep, empty]

/-- R506: a byte before the reply's last is stored. -/
theorem pollStep_of_more {s : State} {b : Byte} {q : List Byte} (head : s.chanRx = b :: q)
    (more : s.rxCnt + 1 < s.expLen) (room : s.expLen ≤ s.cfg.rMax) : pollStep s = .next (storeByte b q s) := by
  have hin : s.rxCnt < s.expLen ∧ s.rxCnt < s.cfg.rMax := by omega
  simp [pollStep, head, hin, more.ne]

/-- R507: the reply's last byte is stored and ends the exchange. -/
theorem pollStep_of_last {s : State} {b : Byte} {q : List Byte} (head : s.chanRx = b :: q)
    (last : s.rxCnt + 1 = s.expLen) (room : s.expLen ≤ s.cfg.rMax) : pollStep s = finishStep (storeByte b q s) := by
  have hin : s.rxCnt < s.expLen ∧ s.rxCnt < s.cfg.rMax := by omega
  simp [pollStep, head, hin, last]

/-- Settles O10: `startStep` and `finishStep` run the instruction that the fetch finds. -/
theorem stepRunsDecodedInstruction : Obligations.StepRunsDecodedInstruction := by
  refine ⟨fun s i hw hb hr hs hfetch => ?_, fun s i b q h ahead head last room hfetch => ?_⟩
  · rw [step_of_start hw hb hr hs, startStep, hfetch]
  · rw [step_of_ahead h ahead, pollStep_of_last head (by simpa using last) (by simpa using room), finishStep, hfetch]

/-- R505: a count that fits the byte is the detail. -/
theorem detailOfCount_toNat {k : Nat} (h : k < 256) : (detailOfCount k).toNat = k := by
  simp [detailOfCount, h, Nat.mod_eq_of_lt h]

/-- Settles O20, from what a TIMEOUT, an empty poll and a stored byte do to each register. -/
theorem awaitStep_spec : Obligations.AwaitStep := by
  intro s h
  have ⟨_, _, hst, _⟩ := h
  refine ⟨fun due => ⟨_, step_of_due h due, rfl, rfl, detailOfCount_toNat, ?_⟩, fun ahead empty => ?_,
    fun b q ahead head more room => ?_⟩
  · simp [RequestKept, CountersKept, BufferKept, EnvKept]
  · rw [step_of_ahead h ahead, pollStep_of_empty empty]
  · refine ⟨storeByte b q (loadInput s), ?_, by simpa using hst, by simp, rfl, by simp, fun a ha => ?_, fun summed => ?_,
      fun outside => ?_, by simp [RequestKept], by simp [ResultsKept], by simp⟩
    · rw [step_of_ahead h ahead, pollStep_of_more head (by simpa using more) (by simpa using room)]
    · simpa using Memory.read_write_other s.rxBuf b ha
    · have inRange : 6 ≤ s.rxCnt ∧ s.rxCnt ≤ s.expLen - 3 := by omega
      simp [inRange, addSum_toNat]
    · have notInRange : ¬ (6 ≤ s.rxCnt ∧ s.rxCnt ≤ s.expLen - 3) := by omega
      simp [notInRange]

/-! ## The reply's last byte (R507) -/

/-- Settles O12, by the agreement of the decoded acknowledgement with the buffer. -/
theorem acknowledgementAgreesWithBuffer : Obligations.AcknowledgementAgreesWithBuffer :=
  fun _ => finishStep_eq_finish

/-- R507: a complete reply ends `OK`, `DEVICE_REJECTED` or `MALFORMED`. -/
theorem finishFields_outcome (f : FrameFields) (s : State) :
    (finishFields f s).outcome = .ok ∨ (finishFields f s).outcome = .deviceRejected ∨
      (finishFields f s).outcome = .malformed := by
  rcases finishFields_cases f s with ⟨r, -, h⟩ | ⟨-, -, h⟩ | ⟨-, -, h⟩ <;> simp [h]

/-- R507, R411: `finish` on a buffer that holds the `E` bytes of a reply. -/
theorem finish_of_read {s : State} {bytes : List Byte} (long : 12 ≤ s.expLen)
    (read : rxReadBytes s 0 s.expLen = some bytes) : ∃ f, finish s = .next (finishFields f s) := by
  obtain ⟨f, -, -, -, -, -, -, parsed, -⟩ := parseFrame_of_bytes (rxReadBytes_length read ▸ long)
  exact ⟨f, finish_of_bytes read parsed⟩

/-- R507: the step that takes the reply's last byte is `finish` on the buffer with that byte, and answers. -/
theorem step_of_last {s : State} {b : Byte} {q bytes : List Byte} (h : AwaitingNow s)
    (ahead : (loadInput s).now < s.deadline) (head : (loadInput s).chanRx = b :: q) (last : s.rxCnt + 1 = s.expLen)
    (long : 12 ≤ s.expLen) (room : s.expLen ≤ s.cfg.rMax) (read : rxReadBytes s 0 s.rxCnt = some bytes) :
    ∃ f, step s = .next (finishFields f (storeByte b q (loadInput s))) ∧
      finish (storeByte b q (loadInput s)) = .next (finishFields f (storeByte b q (loadInput s))) := by
  have hstep : step s = finish (storeByte b q (loadInput s)) := by
    have ⟨_, _, hst, latched⟩ := h
    rw [step_of_ahead h ahead, pollStep_of_last head (by simpa using last) (by simpa using room),
      finishStep_eq_finish (by simpa using hst) (by simpa using latched) (by simpa using last)]
  have hread : rxReadBytes (storeByte b q (loadInput s)) 0 s.expLen = some (bytes ++ [b]) := by
    simpa [last] using rxReadBytes_storeByte b q (loadInput s) (by simpa using read)
  obtain ⟨f, hfinish⟩ := finish_of_read (s := storeByte b q (loadInput s)) (by simpa using long) (by simpa using hread)
  exact ⟨f, hstep.trans hfinish, hfinish⟩

/-- Settles O22, from the step that takes the last byte and the ways `finish` ends. -/
theorem lastByteEndsExchange : Obligations.LastByteEndsExchange := by
  intro s b q bytes h ahead head last long room read
  obtain ⟨f, hstep, hfinish⟩ := step_of_last h ahead head last long room read
  exact ⟨_, hstep, hfinish, finishFields_st _ _, finishFields_outcome _ _, by simp⟩

/-! ## What holds (R509, R512) -/

/-- R509: in `IDLE` and `DONE` a step without strobes is the environment's moves alone. -/
theorem step_of_not_busy {s : State} (hw : catalogWellFormed s.cfg = true) (hb : busy s = false) (hns : NoStrobe s) :
    step s = .next (loadInput s) := by
  have ⟨_, noStart⟩ := hns
  rw [step_of_noStrobe hw hns, engineStep_of_not_busy (by simpa using hb)]
  simp [noStart]

/-- R117: the environment adds to the end of `ChanRx`. -/
theorem chanRx_loadInput (s : State) : ∃ arrived, (loadInput s).chanRx = s.chanRx ++ arrived := by
  unfold loadInput
  cases s.inputs with
  | nil => exact ⟨[], (List.append_nil _).symm⟩
  | cons d rest => exact ⟨d.arrive, rfl⟩

/-- Settles O31: the step is the environment's moves, which touch no register. -/
theorem idleAndDoneHold : Obligations.IdleAndDoneHold := by
  intro s hw hb hns
  exact ⟨step_of_not_busy hw hb hns, by simp, by simp [RequestKept], by simp [CountersKept], by simp [BufferKept],
    by simp [ResultsKept], by simp, chanRx_loadInput s⟩

/-- R102, R512: no move of a busy engine changes the request held. -/
theorem EngineMove.requestKept {s t : State} (h : EngineMove s t) (hb : busy s = true) : RequestKept s t := by
  cases h with
  | hold notBusy | refuse notBusy | latch _ notBusy => simp [notBusy] at hb
  | send | stall | timeout | emptyPoll | store => exact ⟨rfl, rfl, rfl, rfl, rfl, rfl⟩
  | finish => simp [RequestKept, finishFields_frame]

/-- Settles O30: every step but RESET is a move. -/
theorem latchedRequestIsStable : Obligations.LatchedRequestIsStable := by
  intro s t hb noReset hstep
  rcases step_reset_or_move hstep with ⟨hreset, -⟩ | ⟨-, hmove⟩
  · simp [noReset] at hreset
  · simpa [RequestKept] using hmove.requestKept (by simpa using hb)

/-! ## The end of the wait (R513, R515) -/

theorem awaitingNow_of_inv {s : State} (h : Inv s) (hns : NoStrobe s) (hst : s.st = .awaiting) : AwaitingNow s := by
  obtain ⟨⟨latched, -⟩, -⟩ := h.awaiting hst
  exact ⟨h.catalog, hns, hst, latched⟩

/-- Settles O24: the TIMEOUT of R505 at the count 0, with the environment kept. -/
theorem pastDeadlineTimesOutAtOnce : Obligations.PastDeadlineTimesOutAtOnce := by
  intro s h hns hst hcnt due
  exact ⟨_, step_of_due (awaitingNow_of_inv h hns hst) due, rfl, rfl, by simp [hcnt, detailOfCount], rfl⟩

/-- R505 to R508: a step in `AWAITING` without strobes ends the exchange, or waits on with the deadline ahead. -/
theorem exists_step_of_awaiting {s : State} (h : Inv s) (hns : NoStrobe s) (hst : s.st = .awaiting) :
    ∃ t, step s = .next t ∧ (t.st = .done ∨ t.st = .awaiting ∧ (loadInput s).now < s.deadline) := by
  have hnow := awaitingNow_of_inv h hns hst
  have hst' : (loadInput s).st = .awaiting := by simpa using hst
  obtain ⟨⟨-, hentry, -⟩, -, -, -, inside, bytes, read, -⟩ := h.awaiting hst
  obtain ⟨-, long, room⟩ := lookupCatalog_bounds h.catalog hentry
  rcases Nat.lt_or_ge (loadInput s).now s.deadline with ahead | due
  · have hpoll := step_of_ahead hnow ahead
    cases hq : (loadInput s).chanRx with
    | nil => exact ⟨_, hpoll.trans (pollStep_of_empty hq), .inr ⟨hst', ahead⟩⟩
    | cons b q =>
      rcases Nat.lt_or_eq_of_le (Nat.succ_le_of_lt inside) with more | last
      · exact ⟨_, hpoll.trans (pollStep_of_more hq (by simpa using more) (by simpa using room)), .inr ⟨hst', ahead⟩⟩
      · obtain ⟨f, hstep, -⟩ := step_of_last hnow ahead hq last long room read
        exact ⟨_, hstep, .inl (finishFields_st _ _)⟩
  · exact ⟨_, step_of_due hnow due, .inl rfl⟩

/-- R117: no move of the engine touches the inputs to come. -/
theorem EngineMove.inputs {s t : State} (h : EngineMove s t) : t.inputs = s.inputs := by
  cases h with
  | hold | refuse | latch | send | stall | timeout | emptyPoll | store => rfl
  | finish => simp [finishFields_frame]

/-- R117: a step uses up one input. -/
theorem step_inputs {s t : State} (h : step s = .next t) : t.inputs = s.inputs.tail := by
  rw [← inputs_loadInput]
  rcases step_reset_or_move h with ⟨-, rfl⟩ | ⟨-, hmove⟩
  · rfl
  · exact hmove.inputs

/-- R515: the exchange has ended, or the inputs `ds` carry `now` to the deadline it waits for. -/
def EndsWithin (ds : List StepInput) (s : State) : Prop :=
  s.st = .done ∨ s.st = .awaiting ∧ ds ≠ [] ∧ s.deadline ≤ s.now + totalTick ds

/-- R515: a step without strobes leaves the exchange ended, or the rest of its inputs to end it. -/
theorem exists_step_endsWithin {s : State} {d : StepInput} {rest : List StepInput} (h : Inv s)
    (hin : s.inputs = d :: rest) (hns : NoStrobe s) (ends : EndsWithin (d :: rest) s) :
    ∃ t, step s = .next t ∧ EndsWithin rest t := by
  rcases ends with hst | ⟨hst, -, due⟩
  · exact ⟨_, step_of_not_busy h.catalog (busy_of_done hst) hns, .inl (by simpa using hst)⟩
  obtain ⟨t, hstep, hdone | ⟨hst', ahead⟩⟩ := exists_step_of_awaiting h hns hst
  · exact ⟨t, hstep, .inl hdone⟩
  have hload : (loadInput s).now = s.now + d.tick := by simp [loadInput, hin]
  obtain ⟨-, -, hnow⟩ := configFixedClockMonotone s t hstep
  obtain ⟨-, -, -, -, -, hdeadline⟩ := latchedRequestIsStable s t (by simp [busy, hst]) hns.1 hstep
  have due' : t.deadline ≤ t.now + totalTick rest := by
    rw [hdeadline, hnow, hload, Nat.add_assoc]
    exact due
  have more : rest ≠ [] := by
    rintro rfl
    simp only [totalTick] at due'
    omega
  exact ⟨t, hstep, .inr ⟨hst', more, due'⟩⟩

/-- R515: over inputs without strobes that carry `now` to the deadline, the exchange ends with an outcome. -/
theorem runSteps_ends (ds : List StepInput) :
    ∀ {s : State}, Inv s → s.inputs = ds → (∀ d ∈ ds, d.pins.reset = false ∧ d.pins.start = false) →
      EndsWithin ds s → ∃ t, runSteps ds.length s = .next t ∧ t.st = .done ∧ t.outcome ≠ .none := by
  induction ds with
  | nil =>
    rintro s h - - (hst | ⟨-, hne, -⟩)
    · exact ⟨s, rfl, hst, (h.done hst).1⟩
    · exact absurd rfl hne
  | cons d rest ih =>
    intro s h hin quiet ends
    obtain ⟨quietHead, quietRest⟩ := List.forall_mem_cons.mp quiet
    obtain ⟨t, hstep, ends'⟩ := exists_step_endsWithin h hin (by rwa [NoStrobe, pins_loadInput hin]) ends
    rw [List.length_cons, runSteps_succ_of_next hstep]
    exact ih (invKeptByEveryStep s t h hstep) (by rw [step_inputs hstep, hin, List.tail_cons]) quietRest ends'

/-- Settles O25, by induction on the inputs. -/
theorem deadlineBoundsAwaiting : Obligations.DeadlineBoundsAwaiting :=
  fun _ ds h hst hin hne quiet due => runSteps_ends ds h hin quiet (.inr ⟨hst, hne, due⟩)

/-! ## The transitions (R510) -/

/-- R101: outside the busy states the engine is in `IDLE` or `DONE`. -/
theorem idle_or_done_of_not_busy {s : State} (hb : busy s = false) : s.st = .idle ∨ s.st = .done := by
  cases hst : s.st <;> simp [busy, hst] at hb ⊢

/-- Settles O29: RESET is the first row, and each move of the engine is one of the others. -/
theorem transitionsAreExactlyThese : Obligations.TransitionsAreExactlyThese := by
  intro s t hstep
  rcases step_reset_or_move hstep with ⟨hreset, rfl⟩ | ⟨noReset, hmove⟩
  · exact .inl ⟨hreset, rfl⟩
  refine .inr ⟨noReset, ?_⟩
  cases hmove with
  | latch e notBusy start entry =>
    have found : lookupCatalog s.cfg.catalog (loadInput s).pins.reqOpcode = some e := by simpa using entry
    exact .inl ⟨idle_or_done_of_not_busy (by simpa using notBusy), start, by simp [found], rfl⟩
  | refuse notBusy start entry =>
    exact .inr (.inl ⟨idle_or_done_of_not_busy (by simpa using notBusy), start, by simpa using entry, rfl, rfl⟩)
  | hold notBusy start =>
    exact .inr (.inr (.inl ⟨idle_or_done_of_not_busy (by simpa using notBusy), start, by simp⟩))
  | send b st latched byte accept =>
    have hst : s.st = .sending := by simpa using st
    by_cases last : s.txIdx + 1 = 12 + s.n
    · exact .inr (.inr (.inr (.inl ⟨hst, accept, last, by simp [last]⟩)))
    · exact .inr (.inr (.inr (.inr (.inl ⟨hst, .inr last, by simp [last, hst]⟩))))
  | stall b st latched byte accept =>
    exact .inr (.inr (.inr (.inr (.inl ⟨by simpa using st, .inl accept, st⟩))))
  | timeout st latched due =>
    exact .inr (.inr (.inr (.inr (.inr (.inl ⟨by simpa using st, by simpa using due, rfl, rfl⟩)))))
  | finish b q bytes f st latched ahead head room last =>
    exact .inr (.inr (.inr (.inr (.inr (.inr (.inl ⟨by simpa using st, by simpa using ahead, by simp [head],
      by simpa using last, finishFields_st _ _, finishFields_outcome _ _⟩))))))
  | emptyPoll st latched ahead empty =>
    exact .inr (.inr (.inr (.inr (.inr (.inr (.inr ⟨by simpa using st, by simpa using ahead, .inl empty, st⟩))))))
  | store b q st latched ahead head room more =>
    exact .inr (.inr (.inr (.inr (.inr (.inr (.inr ⟨by simpa using st, by simpa using ahead,
      .inr (by simpa using more.ne), st⟩))))))

end Sys2Proof.Proofs
end

section
/-! PROOFS. The statements of 43_response_interpreter.md: how the three acknowledgements end their exchange, and the
payload that a finished exchange exposes. -/

namespace Sys2Proof.Proofs

open Sys2Proof.Machine Sys2Proof.Safety Sys2Proof.Claims

/-! ## The three acknowledgements (R550) -/

/-- R420, R421, R550: an acknowledgement's fields pass every check but the checksum's, which is the first. -/
theorem replyEnds_finishFields {s : State} (addr : U32) (conf : Byte) (payload : List Byte) (cks : U16) {k : Nat}
    (len : (lenField k).toNat = s.expLen - hdrLen) :
    ReplyEnds addr conf cks s (finishFields (ackFields addr conf payload cks k) s) := by
  obtain ⟨hfield, hcalc, haddr⟩ := finishFields_exposes (ackFields addr conf payload cks k) s
  have interpreted (equal : s.cfg.rxVerifyChecksum = false ∨ s.rxSum = cks) :=
    finishFields_of_passed (f := ackFields addr conf payload cks k)
      (firstFailure_none (fun on => equal.resolve_left (by simp [on])) rfl rfl len)
  exact ⟨finishFields_st _ _, hfield, hcalc, haddr,
    fun on hne => finishFields_of_failure (firstFailure_of_checksum_ne on hne),
    fun equal => (interpreted equal).1, fun equal => (interpreted equal).2⟩

/-- R507: an acknowledgement whose complete reply is in the buffer, with the length field of its `E`, ends its
exchange. -/
theorem finishReply_ends {s : State} {o : Byte} {expLen k : Nat} (addr : U32) (conf : Byte) (payload : List Byte)
    (cks : U16) (complete : ReplyComplete o expLen s) (len : (lenField k).toNat = expLen - hdrLen) :
    ∃ t, finishReply o expLen (ackFields addr conf payload cks k) s = .next t ∧ ReplyEnds addr conf cks s t := by
  have ⟨_, _, _, hlen, _⟩ := complete
  exact ⟨_, if_pos (replyDue_iff.mpr complete), replyEnds_finishFields addr conf payload cks (hlen ▸ len)⟩

/-- Settles O7: each acknowledgement is `finishReply` on fields whose length field, 3 or 35, is that of its `E`. -/
theorem acknowledgementsEndExchange : Obligations.AcknowledgementsEndExchange :=
  fun _ addr conf payload cks =>
    ⟨fun complete => finishReply_ends addr conf [] cks complete (by decide),
      fun complete => finishReply_ends addr conf payload cks complete (by decide),
      fun complete => finishReply_ends addr conf [] cks complete (by decide)⟩

/-! ## The payload (R551) -/

/-- I11: a byte of the exchange in flight is the buffer's byte at its offset. -/
theorem read_of_rxRead {s : State} {i : Nat} {b : Byte} (h : rxRead s i = some b) :
    Memory.read s.rxBuf i = some b :=
  (Option.ite_none_right_eq_some.mp h).2

/-- R551: below `PAYLOAD_LEN` the host reads the buffer from offset 10 on. -/
theorem payloadAt_of_lt {s : State} {k : Nat} (h : k < s.payloadLen) : payloadAt s k = rxRead s (10 + k) :=
  if_pos h

/-- R551: with `PAYLOAD_LEN` 0 no payload byte is given. -/
theorem payloadAt_of_payloadLen_zero {s : State} (h : s.payloadLen = 0) (k : Nat) : payloadAt s k = none :=
  if_neg (by simp [h])

/-- R11: an offset inside a read holds a byte. -/
theorem exists_rxRead_of_rxReadBytes {s : State} {a k i : Nat} {bytes : List Byte}
    (read : rxReadBytes s a k = some bytes) (hi : i < k) : ∃ b, rxRead s (a + i) = some b :=
  ⟨_, (rxReadBytes_get read hi).trans (List.getElem?_eq_getElem (rxReadBytes_length read ▸ hi))⟩

/-- Settles O27: after `OK` the invariant has the whole reply in the buffer, and after any other outcome an empty
payload. -/
theorem payloadExposedOnlyAfterOk : Obligations.PayloadExposedOnlyAfterOk := by
  intro s h hst
  obtain ⟨-, afterOk, afterOther⟩ := h.done hst
  refine ⟨fun ok => ?_, fun notOk => ⟨afterOther notOk, payloadAt_of_payloadLen_zero (afterOther notOk)⟩⟩
  obtain ⟨-, hlen, bytes, read⟩ := afterOk ok
  refine ⟨hlen, fun k hk => ?_⟩
  obtain ⟨b, hb⟩ := exists_rxRead_of_rxReadBytes read (i := 10 + k) (by omega)
  rw [Nat.zero_add] at hb
  exact ⟨b, read_of_rxRead hb, (payloadAt_of_lt (hlen ▸ hk)).trans hb⟩

end Sys2Proof.Proofs
end

section
/-! PROOFS. The statement of 60_exceptions.md: no step from a state that meets the invariant is a fault, so no run is. -/

namespace Sys2Proof.Proofs

open Sys2Proof.Machine Sys2Proof.Safety Sys2Proof.Claims

theorem noFault_next (t : State) : NoFault (.next t) := fun _ h => nomatch h

theorem noFault_refused (r : Refusal) : NoFault (.refused r) := fun _ h => nomatch h

/-! ## Steps without strobes (R500) -/

/-- R402, R403: in `SENDING` the framer stands at a byte of the request's frame. -/
theorem exists_frameByte_of_sending {s : State} (h : Inv s) (hst : s.st = .sending) :
    ∃ b, frameByte s s.txIdx = some b := by
  obtain ⟨held, -, inside, -⟩ := h.sending hst
  obtain ⟨hpar, -⟩ := requestHeld_bounds (.of_inv h) held
  rw [frameByte_txIdx_of_sending h hst]
  exact ⟨_, List.getElem?_eq_getElem (by rwa [requestFrame_length hpar])⟩

theorem sendingNow_of_inv {s : State} (h : Inv s) (hns : NoStrobe s) (hst : s.st = .sending) : SendingNow s := by
  obtain ⟨⟨latched, -⟩, -⟩ := h.sending hst
  exact ⟨h.catalog, hns, hst, latched⟩

/-- R504: a step in `SENDING` without strobes sends a byte or stalls. -/
theorem exists_step_of_sending {s : State} (h : Inv s) (hns : NoStrobe s) (hst : s.st = .sending) :
    ∃ t, step s = .next t := by
  obtain ⟨b, byte⟩ := exists_frameByte_of_sending h hst
  rw [step_of_sendingNow (sendingNow_of_inv h hns hst) byte]
  split
  · exact ⟨_, rfl⟩
  · exact ⟨_, rfl⟩

/-- R500: every step without strobes answers a next state. -/
theorem exists_step_of_noStrobe {s : State} (h : Inv s) (hns : NoStrobe s) : ∃ t, step s = .next t := by
  cases hb : busy s with
  | false => exact ⟨_, step_of_not_busy h.catalog hb hns⟩
  | true =>
    rcases (busy_iff s).mp hb with hst | hst
    · exact exists_step_of_sending h hns hst
    · obtain ⟨t, hstep, -⟩ := exists_step_of_awaiting h hns hst
      exact ⟨t, hstep⟩

/-! ## Steps with a strobe (R500, R501) -/

/-- R500: RESET is looked at first. -/
theorem step_of_reset {s : State} (hw : catalogWellFormed s.cfg = true) (hr : (loadInput s).pins.reset = true) :
    step s = .next (resetEngine (loadInput s)) := by
  simp [step, clockedStep, hw, hr]

/-- R501: a START while BUSY is refused. -/
theorem step_of_start_while_busy {s : State} (hw : catalogWellFormed s.cfg = true) (hb : busy s = true)
    (hr : (loadInput s).pins.reset = false) (hs : (loadInput s).pins.start = true) :
    step s = .refused .startWhileBusy := by
  simp [step, clockedStep, hw, hb, hr, hs]

/-- R501 to R503: a START begins its exchange or is refused, busy or not. -/
theorem noFault_step_of_start {s : State} (hw : catalogWellFormed s.cfg = true)
    (hr : (loadInput s).pins.reset = false) (hs : (loadInput s).pins.start = true) : NoFault (step s) := by
  cases hb : busy s with
  | true =>
    rw [step_of_start_while_busy hw hb hr hs]
    exact noFault_refused _
  | false =>
    rw [step_eq_startRequest hw hb hr hs]
    exact startRequest_no_fault _ _ _

/-! ## Runs (R600, I11) -/

/-- I11, R600: no step from a state that meets the invariant is a fault. -/
theorem noFault_step {s : State} (h : Inv s) : NoFault (step s) := by
  cases hr : (loadInput s).pins.reset with
  | true =>
    rw [step_of_reset h.catalog hr]
    exact noFault_next _
  | false =>
    cases hs : (loadInput s).pins.start with
    | true => exact noFault_step_of_start h.catalog hr hs
    | false =>
      obtain ⟨t, hstep⟩ := exists_step_of_noStrobe h ⟨hr, hs⟩
      rw [hstep]
      exact noFault_next t

/-- A run is safe when its first step is no fault and the rest of it is safe. -/
theorem safeRun_succ {k : Nat} {s : State} (first : NoFault (step s)) (rest : ∀ t, step s = .next t → SafeRun k t) :
    SafeRun (k + 1) s := by
  unfold SafeRun runSteps
  cases hstep : step s with
  | next t => exact rest t hstep
  | fault r => exact absurd hstep (first r)
  | refused r => exact noFault_refused r

/-- Settles O48, by induction on the length of the run: no step is a fault, and each step keeps the invariant. -/
theorem runsNeverFault : Obligations.RunsNeverFault := by
  intro s k h
  induction k generalizing s with
  | zero => exact noFault_next s
  | succ k ih => exact safeRun_succ (noFault_step h) fun t hstep => ih t (invKeptByEveryStep s t h hstep)

end Sys2Proof.Proofs
end

section
/-! PROOFS. The statements of 70_reset_and_hazards.md: RESET in any state, and a START while BUSY, which the model
refuses and the engine ignores. -/

namespace Sys2Proof.Proofs

open Sys2Proof.Machine Sys2Proof.Safety Sys2Proof.Claims

/-! ## RESET (R700, R702) -/

/-- R107, R120: STATUS with the registers at their reset values. -/
theorem status_of_registersAtReset {s : State} (hst : s.st = .idle) (h : RegistersAtReset s) : status s = 0 := by
  obtain ⟨-, -, -, -, -, -, houtcome, hdetail, -⟩ := h
  simp [status, doneFlag, busy, hst, houtcome, hdetail, OutcomeName.code, SeqState.code]

/-- I11, R120: with no byte received, no buffer byte has a value. -/
theorem rxRead_of_rxCnt_zero {s : State} (h : s.rxCnt = 0) (i : Nat) : rxRead s i = none := by
  simp [rxRead, h]

/-- R700: RESET leaves the environment alone. -/
theorem envKept_resetEngine (s : State) : EnvKept s (resetEngine s) := ⟨rfl, rfl, rfl, rfl, rfl, rfl⟩

/-- Settles O13: the step is `resetEngine` on this step's inputs. -/
theorem resetStep : Obligations.ResetStep := fun s hw hr =>
  have atReset := registersAtReset_resetEngine (loadInput s)
  ⟨resetEngine (loadInput s), step_of_reset hw hr, rfl, atReset, status_of_registersAtReset rfl atReset,
    rxRead_of_rxCnt_zero rfl, payloadAt_of_payloadLen_zero rfl, envKept_resetEngine _⟩

/-- Settles O14: the initial state holds each reset value, under the default configuration. -/
theorem initialStateIsResetState : Obligations.InitialStateIsResetState :=
  ⟨rfl, rfl, registersAtReset_reset, status_of_registersAtReset rfl registersAtReset_reset⟩

/-! ## The model refuses a START while BUSY (R501, R704) -/

/-- R501: a request while BUSY is refused, whatever its opcode and parameter bytes. -/
theorem startRequest_of_busy {s : State} (hb : busy s = true) (o : Byte) (ps : List Byte) :
    startRequest o ps s = .refused .startWhileBusy := by
  simp [startRequest, hb]

/-! ## Each move of the engine is what its step does (R500) -/

/-- R504: the send step with the request held, by the channel's answer. -/
theorem sendStep_of_byte {s : State} {b : Byte} (latched : s.latched = true) (byte : frameByte s s.txIdx = some b) :
    sendStep s = if s.pins.txAccept then .next (acceptByte b s) else .next s := by
  simp [sendStep, latched, byte]

/-- R505: at or past the deadline the exchange times out. -/
theorem awaitStep_of_due {s : State} (latched : s.latched = true) (due : s.deadline ≤ s.now) :
    awaitStep s = .next (raiseOutcome .timeout (detailOfCount s.rxCnt) s) := by
  simp [awaitStep, latched, due]

/-- R505, R506: before the deadline the engine polls. -/
theorem awaitStep_of_ahead {s : State} (latched : s.latched = true) (ahead : s.now < s.deadline) :
    awaitStep s = pollStep s := by
  simp [awaitStep, latched, Nat.not_le.mpr ahead]

/-- R506: a byte before the reply's last is stored where the buffer has room for that byte. -/
theorem pollStep_of_room {s : State} {b : Byte} {q : List Byte} (head : s.chanRx = b :: q)
    (more : s.rxCnt + 1 < s.expLen) (room : s.rxCnt < s.cfg.rMax) : pollStep s = .next (storeByte b q s) := by
  have inReply : s.rxCnt < s.expLen := by omega
  simp [pollStep, head, inReply, room, more.ne]

/-- R500: the engine's step makes every move whose guards hold: the converse of `EngineMove.of_engineStep`. -/
theorem EngineMove.engineStep_eq {s t : State} (h : EngineMove s t) : engineStep s = .next t := by
  cases h with
  | hold notBusy start => simp [engineStep_of_not_busy notBusy, start]
  | refuse notBusy start entry =>
    rw [engineStep_of_not_busy notBusy, if_pos start, startStep_eq_startRequest, startRequest_refuses notBusy entry]
  | latch e notBusy start entry encodable given =>
    rw [engineStep_of_not_busy notBusy, if_pos start, startStep_eq_startRequest,
      startRequest_begins notBusy entry encodable given]
  | send b st latched byte accept => simp [engineStep_of_sending st, sendStep_of_byte latched byte, accept]
  | stall b st latched byte accept => simp [engineStep_of_sending st, sendStep_of_byte latched byte, accept]
  | timeout st latched due => rw [engineStep_of_awaiting st, awaitStep_of_due latched due]
  | emptyPoll st latched ahead empty =>
    rw [engineStep_of_awaiting st, awaitStep_of_ahead latched ahead, pollStep_of_empty empty]
  | store b q st latched ahead head room more =>
    rw [engineStep_of_awaiting st, awaitStep_of_ahead latched ahead, pollStep_of_room head more room]
  | finish b q bytes f st latched ahead head room last read parsed =>
    rw [engineStep_of_awaiting st, awaitStep_of_ahead latched ahead, pollStep_of_last head last (by omega),
      finishStep_eq_finish (by simpa using st) (by simpa using latched) (by simpa using last),
      finish_of_bytes (by simpa using read) parsed]

/-! ## The busy engine ignores the request port (R501, R704) -/

section RequestPort

variable (start : Bool) (o : Byte) (ps : List Byte) (d : Nat)

/-- R420, R550: decode and interpretation read no pin. -/
theorem finishFields_withRequest (f : FrameFields) (s : State) :
    finishFields f (withRequest start o ps d s) = withRequest start o ps d (finishFields f s) := by
  have hchecks : firstFailure (withRequest start o ps d s).cfg.rxVerifyChecksum (withRequest start o ps d s).expLen
      (withRequest start o ps d s).rxSum f = firstFailure s.cfg.rxVerifyChecksum s.expLen s.rxSum f := rfl
  simp only [finishFields, hchecks]
  cases firstFailure s.cfg.rxVerifyChecksum s.expLen s.rxSum f with
  | some r => rfl
  | none =>
    simp only [interpretReply]
    split <;> rfl

/-- R501: a move of the busy engine is its move under any other request on the pins. -/
theorem engineMove_withRequest {s t : State} (h : EngineMove s t) (hb : busy s = true) :
    EngineMove (withRequest start o ps d s) (withRequest start o ps d t) := by
  cases h with
  | hold notBusy | refuse notBusy | latch _ notBusy => cases notBusy.symm.trans hb
  | send b st latched byte accept => exact .send b st latched byte accept
  | stall b st latched byte accept => exact .stall b st latched byte accept
  | timeout st latched due => exact .timeout st latched due
  | emptyPoll st latched ahead empty => exact .emptyPoll st latched ahead empty
  | store b q st latched ahead head room more => exact .store b q st latched ahead head room more
  | finish b q bytes f st latched ahead head room last read parsed =>
    have sameRead : rxReadBytes (storeByte b q (withRequest start o ps d s)) 0 s.expLen =
        rxReadBytes (storeByte b q s) 0 s.expLen := rxReadBytes_of_buffer_eq (by rfl) (by rfl) 0 s.expLen
    rw [← finishFields_withRequest]
    exact .finish b q bytes f st latched ahead head room last (sameRead.trans read) parsed

end RequestPort

/-- Settles O5: a request and a step with START meet the refusal, and the moves of the busy engine, which are its steps,
read no request pin. -/
theorem startWhileBusy : Obligations.StartWhileBusy :=
  ⟨fun _ _ _ _ _ hb => ⟨startRequest_of_busy hb _ _, startRequest_of_busy hb _ _, startRequest_of_busy hb _ _⟩,
    fun _ => step_of_start_while_busy,
    fun _ _ start o ps d hb h => (engineMove_withRequest start o ps d (.of_engineStep h) hb).engineStep_eq⟩

end Sys2Proof.Proofs
end
